-- ==== Sys2Proof/Word.lean ====
section
/-! DEFINITION. The value widths of the engine (spec/00_scope.md R8, R13): 8-bit bytes, the 16-bit distance code,
and the 256-entry table of bytes. Every value is unsigned. -/

namespace Sys2Proof

/-- A byte of a frame, of a command, of the CRC accumulator (R8). -/
abbrev Byte := BitVec 8

/-- The 16-bit distance code (spec/30_encoding.md R72). -/
abbrev Code16 := BitVec 16

/-- The CRC table's shape: 256 entries of 8 bits (spec/10_state.md R24). -/
abbrev Table := Vector Byte 256

end Sys2Proof
end

