-- ==== Sys2Proof/Config.lean ====
section
/-! DEFINITION. What one engine instance fixes (spec/00_scope.md R7), the enumerations its operands and parameters use,
and the free values: opaque constants without a body, which no proof can evaluate (log 2 to log 5, log 19). -/

namespace Sys2Proof

/-- INIT_MODE's operand (spec/44_mode_init.md R200). -/
inductive Mode where
  | binary
  | text
deriving DecidableEq, Repr

/-- The resynchronization strategies the spec names (spec/42_stream_sync.md R157): only the first is admitted. -/
inductive ResyncMode where
  | wholeFrameDiscard
  | headerHunt
deriving DecidableEq, Repr

/-- Who issues an operation (spec/30_encoding.md R93): the caller, or the engine inside RUN. -/
inductive Issuer where
  | caller
  | engine
deriving DecidableEq, Repr

/-- A 4-byte window `[header, lowByte, highByte, crc]` (spec/00_scope.md R12 ByteFrame); every command is
4 bytes as well (spec/30_encoding.md R81). -/
structure ByteFrame where
  b0 : Byte
  b1 : Byte
  b2 : Byte
  b3 : Byte
deriving DecidableEq, Repr

/-- One draw of the channel oracle for a read (spec/20_memory.md R56): how many bytes it answers, or a failure.
A number above the request counts as the whole request (log 3). -/
inductive ReadDraw where
  | bytes (k : Nat)
  | fail
deriving DecidableEq, Repr, Inhabited

/-- One draw of the channel oracle for a write (spec/20_memory.md R58): all sent, or a failure after `sent` bytes
(fewer than all, log 4). -/
inductive WriteDraw where
  | ok
  | fail (sent : Nat)
deriving DecidableEq, Repr, Inhabited

/-- The parameters of one engine instance, fixed for its life (spec/00_scope.md R7).
`counterWidth = none` is the spec's value: counters are unbounded naturals (spec/10_state.md R31). -/
structure Params where
  crcTable          : Table
  binaryModeCommand : ByteFrame
  textModeCommand   : ByteFrame
  counterWidth      : Option Nat
deriving DecidableEq, Repr

namespace Config

/-- `HEADER`, hardwired (spec/10_state.md R25, spec/30_encoding.md R71). -/
def header : Byte := 0x54

/-- Bytes of a frame, hardwired (spec/30_encoding.md R70). -/
def frameLen : Nat := 4

/-- `BINARY_MODE_COMMAND` (spec/30_encoding.md R77). -/
def binaryModeCommand : ByteFrame := ⟨0x00, 0x11, 0x02, 0x4C⟩

/-- `TEXT_MODE_COMMAND`: the same bytes (spec/44_mode_init.md R202). -/
def textModeCommand : ByteFrame := ⟨0x00, 0x11, 0x02, 0x4C⟩

/-- Rows r=0 to r=3 of the listing of T07 (spec/40_crc8.md R104). -/
def t07RowsA : List Byte :=
  [0x00, 0x07, 0x0E, 0x09, 0x1C, 0x1B, 0x12, 0x15, 0x38, 0x3F, 0x36, 0x31, 0x24, 0x23, 0x2A, 0x2D] ++
  [0x70, 0x77, 0x7E, 0x79, 0x6C, 0x6B, 0x62, 0x65, 0x48, 0x4F, 0x46, 0x41, 0x54, 0x53, 0x5A, 0x5D] ++
  [0xE0, 0xE7, 0xEE, 0xE9, 0xFC, 0xFB, 0xF2, 0xF5, 0xD8, 0xDF, 0xD6, 0xD1, 0xC4, 0xC3, 0xCA, 0xCD] ++
  [0x90, 0x97, 0x9E, 0x99, 0x8C, 0x8B, 0x82, 0x85, 0xA8, 0xAF, 0xA6, 0xA1, 0xB4, 0xB3, 0xBA, 0xBD]

/-- Rows r=4 to r=7 (R104). -/
def t07RowsB : List Byte :=
  [0xC7, 0xC0, 0xC9, 0xCE, 0xDB, 0xDC, 0xD5, 0xD2, 0xFF, 0xF8, 0xF1, 0xF6, 0xE3, 0xE4, 0xED, 0xEA] ++
  [0xB7, 0xB0, 0xB9, 0xBE, 0xAB, 0xAC, 0xA5, 0xA2, 0x8F, 0x88, 0x81, 0x86, 0x93, 0x94, 0x9D, 0x9A] ++
  [0x27, 0x20, 0x29, 0x2E, 0x3B, 0x3C, 0x35, 0x32, 0x1F, 0x18, 0x11, 0x16, 0x03, 0x04, 0x0D, 0x0A] ++
  [0x57, 0x50, 0x59, 0x5E, 0x4B, 0x4C, 0x45, 0x42, 0x6F, 0x68, 0x61, 0x66, 0x73, 0x74, 0x7D, 0x7A]

/-- Rows r=8 to r=B (R104). -/
def t07RowsC : List Byte :=
  [0x89, 0x8E, 0x87, 0x80, 0x95, 0x92, 0x9B, 0x9C, 0xB1, 0xB6, 0xBF, 0xB8, 0xAD, 0xAA, 0xA3, 0xA4] ++
  [0xF9, 0xFE, 0xF7, 0xF0, 0xE5, 0xE2, 0xEB, 0xEC, 0xC1, 0xC6, 0xCF, 0xC8, 0xDD, 0xDA, 0xD3, 0xD4] ++
  [0x69, 0x6E, 0x67, 0x60, 0x75, 0x72, 0x7B, 0x7C, 0x51, 0x56, 0x5F, 0x58, 0x4D, 0x4A, 0x43, 0x44] ++
  [0x19, 0x1E, 0x17, 0x10, 0x05, 0x02, 0x0B, 0x0C, 0x21, 0x26, 0x2F, 0x28, 0x3D, 0x3A, 0x33, 0x34]

/-- Rows r=C to r=F (R104). -/
def t07RowsD : List Byte :=
  [0x4E, 0x49, 0x40, 0x47, 0x52, 0x55, 0x5C, 0x5B, 0x76, 0x71, 0x78, 0x7F, 0x6A, 0x6D, 0x64, 0x63] ++
  [0x3E, 0x39, 0x30, 0x37, 0x22, 0x25, 0x2C, 0x2B, 0x06, 0x01, 0x08, 0x0F, 0x1A, 0x1D, 0x14, 0x13] ++
  [0xAE, 0xA9, 0xA0, 0xA7, 0xB2, 0xB5, 0xBC, 0xBB, 0x96, 0x91, 0x98, 0x9F, 0x8A, 0x8D, 0x84, 0x83] ++
  [0xDE, 0xD9, 0xD0, 0xD7, 0xC2, 0xC5, 0xCC, 0xCB, 0xE6, 0xE1, 0xE8, 0xEF, 0xFA, 0xFD, 0xF4, 0xF3]

theorem t07RowsA_length : t07RowsA.length = 64 := by decide
theorem t07RowsB_length : t07RowsB.length = 64 := by decide
theorem t07RowsC_length : t07RowsC.length = 64 := by decide
theorem t07RowsD_length : t07RowsD.length = 64 := by decide

/-- The default table `T07` as the spec lists it (spec/40_crc8.md R104; log 9). -/
def t07 : Table :=
  ⟨(t07RowsA ++ t07RowsB ++ t07RowsC ++ t07RowsD).toArray, by
    rw [List.size_toArray, List.length_append, List.length_append, List.length_append, t07RowsA_length,
      t07RowsB_length, t07RowsC_length, t07RowsD_length]⟩

/-- The values of R7's column "this spec". -/
def params : Params :=
  { crcTable := t07
    binaryModeCommand := binaryModeCommand
    textModeCommand := textModeCommand
    counterWidth := none }

/-- Free value: the byte of the input stream at a position no list of the state gives (spec/20_memory.md R50; log 3). -/
opaque freeByte : Nat → Byte

/-- Free value: the channel's answer to a read (spec/20_memory.md R56; log 3). -/
opaque freeRead : Nat → ReadDraw

/-- Free value: the channel's answer to a write (spec/20_memory.md R58; log 4). -/
opaque freeWrite : Nat → WriteDraw

/-- Free value: how far the monotonic clock moved on before a draw (spec/43_pipeline.md R178; log 5). -/
opaque freeElapsed : Nat → Nat

/-- Free value: the level the caller sets CANCEL to between two steps (spec/10_state.md R32; log 2). -/
opaque freeCancel : Nat → Bool

/-- Free value: the delta of the n-th record of the reference sink's timestamp log, whose origin and unit the spec
leaves open (spec/30_encoding.md R79 `LOG_DELTA_ORIGIN`, `TIME_UNIT`; log 19). -/
opaque freeLogDelta : Nat → BitVec 32

end Config

end Sys2Proof
end

