-- ==== Sys2Proof/Syntax.lean ====
section
/-! DEFINITION. The nine operations of the engine (spec/30_encoding.md R90, R91): one constructor per row of
spec/opcode_table.json, with its operands by value (R92). -/

namespace Sys2Proof

/-- The operations. RUN's third operand is the strategy RUN latches as RESYNC_MODE (spec/10_state.md R33); the
program image has no byte for it and always means WholeFrameDiscard (log 20). -/
inductive Instr where
  /-- `0x01` CRC_STEP acc, b (spec/40_crc8.md R101) -/
  | crcStep (acc b : Byte)
  /-- `0x02` CRC_COMPUTE data, len (spec/40_crc8.md R102) -/
  | crcCompute (data : List Byte) (len : Nat)
  /-- `0x03` DECODE [b0, b1, b2, b3] (spec/41_frame_decoder.md R120) -/
  | decode (b0 b1 b2 b3 : Byte)
  /-- `0x04` CLASSIFY code (spec/41_frame_decoder.md R124) -/
  | classify (code : Code16)
  /-- `0x05` NEXT_FRAME, issued by the engine only (spec/42_stream_sync.md R151) -/
  | nextFrame
  /-- `0x06` RUN_STEP, issued by the engine only (spec/43_pipeline.md R171) -/
  | runStep
  /-- `0x07` RUN budget, ts (spec/43_pipeline.md R170) -/
  | run (budget : Option Nat) (ts : Bool) (resync : ResyncMode)
  /-- `0x08` INIT_MODE mode (spec/44_mode_init.md R200) -/
  | initMode (mode : Mode)
  /-- `0x09` CLOSE, issued by the engine only (spec/43_pipeline.md R176) -/
  | close
deriving DecidableEq, Repr

end Sys2Proof
end

