-- ==== Sys2Proof/WellFormed.lean ====
section
/-! DEFINITION. Which operations are well-formed (spec/30_encoding.md R92, spec/60_exceptions.md R227), which of them a
program image can hold (R94), and the reasons a decoder names when it refuses (R93). -/

namespace Sys2Proof

/-- Why the operation decoder refuses (spec/30_encoding.md R93, R94). A refusal changes no state: safe. -/
inductive Reject where
  /-- the select code spells no operation (R90, R93) -/
  | unusedCode (code : Byte)
  /-- an operation only the engine issues, requested by the caller (R93) -/
  | engineInternal (code : Byte)
  /-- an operand outside its type (R92): a bad mode byte, a reserved bit of RUN's F, a budget without F[0] -/
  | badOperand (code : Byte)
  /-- CRC_COMPUTE with `len` above the count of data bytes (R94, spec/40_crc8.md R102) -/
  | lengthBeyondData
  /-- the image ends inside an operation (R94) -/
  | truncated
deriving DecidableEq, Repr

/-- Operands in their types (spec/30_encoding.md R92; spec/40_crc8.md R102; spec/42_stream_sync.md R157). -/
def Instr.wellFormed : Instr → Bool
  | .crcStep _ _ => true
  | .crcCompute data len => decide (len ≤ data.length)
  | .decode _ _ _ _ => true
  | .classify _ => true
  | .nextFrame => true
  | .runStep => true
  | .run _ _ resync => decide (resync = .wholeFrameDiscard)
  | .initMode _ => true
  | .close => true

/-- The limits of the program image (spec/30_encoding.md R94): at most 255 data bytes, a budget of 32 bits. -/
def Instr.inImage : Instr → Bool
  | .crcStep _ _ => true
  | .crcCompute data _ => decide (data.length ≤ 255)
  | .decode _ _ _ _ => true
  | .classify _ => true
  | .nextFrame => true
  | .runStep => true
  | .run budget _ _ => decide (budget.getD 0 < 4294967296)
  | .initMode _ => true
  | .close => true

/-- Who may issue the operation: NEXT_FRAME, RUN_STEP and CLOSE come from the engine alone (spec/30_encoding.md R93). -/
def Instr.issuer : Instr → Issuer
  | .crcStep _ _ => .caller
  | .crcCompute _ _ => .caller
  | .decode _ _ _ _ => .caller
  | .classify _ => .caller
  | .nextFrame => .engine
  | .runStep => .engine
  | .run _ _ _ => .caller
  | .initMode _ => .caller
  | .close => .engine

end Sys2Proof
end

