-- ==== Sys2Proof/Decode.lean ====
section
/-! DEFINITION. The operation decoder over the program image (spec/30_encoding.md R90, R93, R94), total on any bytes and
refusing by name, and the encoder written from the same table. -/

namespace Sys2Proof

/-- Byte `i` (least significant first) of a number: the image's operands are little-endian (R94). -/
def byteOf (n i : Nat) : Byte := BitVec.ofNat 8 (n >>> (8 * i))

/-- The 32-bit little-endian budget `B0..B3` of RUN (R94). -/
def le32 (c0 c1 c2 c3 : Byte) : Nat :=
  c0.toNat + 256 * c1.toNat + 65536 * c2.toNat + 16777216 * c3.toNat

/-- `{hi, lo}` (R8): CLASSIFY's operand from its two image bytes (R94). -/
def code16 (lo hi : Byte) : Code16 := hi ++ lo

/-- `02 n len d0 ... d(n-1)` after the select code (R94). Where `len > n` and data bytes are missing too, the length is the
ground named (the model's choice, log 24). -/
def decodeCrcCompute : List Byte → Except Reject (Instr × List Byte)
  | n :: len :: rest =>
    if n.toNat < len.toNat then .error .lengthBeyondData
    else if rest.length < n.toNat then .error .truncated
    else .ok (.crcCompute (rest.take n.toNat) len.toNat, rest.drop n.toNat)
  | _ => .error .truncated

/-- `07 F B0 B1 B2 B3` after the select code (R94): `F[7:2]` is 0, and the budget bytes are 0 without `F[0]`. An image that
ends too early is truncated whatever `F` is (the model's choice, log 24). -/
def decodeRun : List Byte → Except Reject (Instr × List Byte)
  | f :: c0 :: c1 :: c2 :: c3 :: rest =>
    if 4 ≤ f.toNat then .error (.badOperand 0x07)
    else if f.getLsbD 0 then .ok (.run (some (le32 c0 c1 c2 c3)) (f.getLsbD 1) .wholeFrameDiscard, rest)
    else if le32 c0 c1 c2 c3 = 0 then .ok (.run none (f.getLsbD 1) .wholeFrameDiscard, rest)
    else .error (.badOperand 0x07)
  | _ => .error .truncated

/-- `08 m` after the select code (R94). -/
def decodeInitMode : List Byte → Except Reject (Instr × List Byte)
  | m :: rest =>
    if m = 0x00 then .ok (.initMode .binary, rest)
    else if m = 0x01 then .ok (.initMode .text, rest)
    else .error (.badOperand 0x08)
  | _ => .error .truncated

/-- An operation of one byte that only the engine issues (R93). -/
def decodeInternal (who : Issuer) (code : Byte) (i : Instr) (rest : List Byte) : Except Reject (Instr × List Byte) :=
  match who with
  | .engine => .ok (i, rest)
  | .caller => .error (.engineInternal code)

/-- One operation from the front of an image, with the rest of the image (R94: decoded from its first byte onward, one
operation at a time). -/
def decodeOp (who : Issuer) : List Byte → Except Reject (Instr × List Byte)
  | [] => .error .truncated
  | code :: rest =>
    match code.toNat with
    | 1 =>
      match rest with
      | acc :: b :: r => .ok (.crcStep acc b, r)
      | _ => .error .truncated
    | 2 => decodeCrcCompute rest
    | 3 =>
      match rest with
      | b0 :: b1 :: b2 :: b3 :: r => .ok (.decode b0 b1 b2 b3, r)
      | _ => .error .truncated
    | 4 =>
      match rest with
      | lo :: hi :: r => .ok (.classify (code16 lo hi), r)
      | _ => .error .truncated
    | 5 => decodeInternal who code .nextFrame rest
    | 6 => decodeInternal who code .runStep rest
    | 7 => decodeRun rest
    | 8 => decodeInitMode rest
    | 9 => decodeInternal who code .close rest
    | _ => .error (.unusedCode code)

/-- The select code of an operation (R90). -/
def opCode : Instr → Byte
  | .crcStep _ _ => 0x01
  | .crcCompute _ _ => 0x02
  | .decode _ _ _ _ => 0x03
  | .classify _ => 0x04
  | .nextFrame => 0x05
  | .runStep => 0x06
  | .run _ _ _ => 0x07
  | .initMode _ => 0x08
  | .close => 0x09

/-- RUN's flag byte `F` (R94). -/
def runFlags (budget : Option Nat) (ts : Bool) : Byte :=
  (if budget.isSome then 0x01 else 0x00) ||| (if ts then 0x02 else 0x00)

/-- The operand bytes after the select code (R94). -/
def operandBytes : Instr → List Byte
  | .crcStep acc b => [acc, b]
  | .crcCompute data len => byteOf data.length 0 :: byteOf len 0 :: data
  | .decode b0 b1 b2 b3 => [b0, b1, b2, b3]
  | .classify code => [byteOf code.toNat 0, byteOf code.toNat 1]
  | .nextFrame => []
  | .runStep => []
  | .run budget ts _ =>
    [runFlags budget ts, byteOf (budget.getD 0) 0, byteOf (budget.getD 0) 1, byteOf (budget.getD 0) 2,
      byteOf (budget.getD 0) 3]
  | .initMode .binary => [0x00]
  | .initMode .text => [0x01]
  | .close => []

/-- The image bytes of an operation (R94). For an operation outside the image's limits (`Instr.inImage`) the bytes are
cut to their fields and mean another operation. -/
def encode (i : Instr) : List Byte := opCode i :: operandBytes i

/-- Bytes of the longest operation in an image: `02 n len` and 255 data bytes (R94). -/
def maxOpBytes : Nat := 258

/-- The image bytes of an instruction whose bits are `w`, `nbits` of them given, the bits above them 0. -/
def tableBytes (nbits w : Nat) : List Byte :=
  (List.range (nbits / 8)).map (byteOf w) ++ List.replicate (maxOpBytes - nbits / 8) 0x00

/-- Whom a select code comes from: 05, 06 and 09 from the engine, every other code from the caller (R93). -/
def issuerOfCode (w : Nat) : Issuer :=
  if w % 256 = 5 ∨ w % 256 = 6 ∨ w % 256 = 9 then .engine else .caller

/-- What the decoder reads from a row of the opcode table, issued by whoever may issue it (log 21). -/
def decodeTableWord (nbits w : Nat) : Option Instr :=
  match decodeOp (issuerOfCode w) (tableBytes nbits w) with
  | .ok (i, _) => some i
  | .error _ => none

end Sys2Proof
end

