-- ==== Sys2Proof/Machine/State.lean ====
section
/-! DEFINITION. The state of one engine instance (spec/10_state.md), the values its operations return, the reasons a step
stops, and the state after reset (R38). -/

namespace Sys2Proof.Machine

/-- `Result<A, E>` of the spec's own notation (spec/00_scope.md R11). -/
inductive Result (α ε : Type) where
  | ok (a : α)
  | err (e : ε)
deriving DecidableEq, Repr

/-- The synchronizer's one explicit state (spec/10_state.md R26, spec/42_stream_sync.md R150; log 17). -/
inductive SyncState where
  | aligned
deriving DecidableEq, Repr

/-- `PHASE` (spec/10_state.md R28). -/
inductive Phase where
  | reset
  | ready
  | running
  | stopped
deriving DecidableEq, Repr

/-- `STOP_REASON` (spec/10_state.md R29). -/
inductive StopReason where
  | none
  | budgetReached
  | cancelled
  | transportFailure
  | initFailed
deriving DecidableEq, Repr

/-- A sample's classification (spec/30_encoding.md R75, R76); a measurement's value is in millimetres. -/
inductive Classification where
  | negativeInfinity
  | negativeOne
  | positiveInfinity
  | measurement (mm : Nat)
deriving DecidableEq, Repr

/-- A DistanceSample (spec/30_encoding.md R76); TIME is a natural number (spec/00_scope.md R7). -/
structure Sample where
  rawCode        : Code16
  classification : Classification
  capturedAt     : Option Nat
deriving DecidableEq, Repr

/-- DECODE's errors (spec/60_exceptions.md R220). -/
inductive DecodeError where
  | headerMismatch
  | checksumFailed
deriving DecidableEq, Repr

/-- NEXT_FRAME's errors (spec/60_exceptions.md R220). -/
inductive SyncError where
  | timeout
  | transportFailure
deriving DecidableEq, Repr

/-- INIT_MODE's error (spec/60_exceptions.md R220). -/
inductive InitError where
  | writeFailed
deriving DecidableEq, Repr

/-- The outcome of one attempt (spec/43_pipeline.md R181). -/
inductive AttemptOutcome where
  | valid (sample : Sample)
  | headerMismatch
  | checksumFailed
  | timeout
  | transportFailure
deriving DecidableEq, Repr

/-- What the channel answers to a write (spec/20_memory.md R58). -/
inductive WriteAnswer where
  | ok
  | fail
deriving DecidableEq, Repr

/-- What the channel answers to a read (spec/20_memory.md R56). -/
inductive ReadAnswer where
  | bytes (s : List Byte)
  | fail
deriving DecidableEq, Repr

/-- An entry of `EVENTS` (spec/10_state.md R35). -/
inductive Event where
  | attempt (outcome : AttemptOutcome)
  | write (bytes : List Byte) (answer : WriteAnswer)
  | close
deriving DecidableEq, Repr

/-- RUN's summary (spec/43_pipeline.md R179). -/
structure Summary where
  valid            : Nat
  headerMismatches : Nat
  checksumFailures : Nat
  timeouts         : Nat
deriving DecidableEq, Repr

/-- What RUN latches when it starts: registers C0, C1, C2 (spec/10_state.md R33, R36). -/
structure RunConfig where
  budget     : Option Nat
  timestamps : Bool
  resync     : ResyncMode
deriving DecidableEq, Repr

/-- What an operation hands back to whoever requested it (spec/00_scope.md R10 `return` and `raise`; log 8). -/
inductive OpResult where
  /-- CRC_STEP, CRC_COMPUTE -/
  | crc (v : Byte)
  /-- DECODE -/
  | decoded (r : Result Sample DecodeError)
  /-- CLASSIFY -/
  | classified (c : Classification)
  /-- NEXT_FRAME -/
  | frame (r : Result ByteFrame SyncError)
  /-- RUN_STEP -/
  | attempt (o : AttemptOutcome)
  /-- RUN, at its stop -/
  | run (summary : Summary) (reason : StopReason)
  /-- INIT_MODE -/
  | init (r : Result Unit InitError)
  /-- CLOSE -/
  | closed
deriving DecidableEq, Repr

/-- The four counters (spec/10_state.md R30). -/
inductive Counter where
  | valid
  | headerMismatches
  | checksumFailures
  | timeouts
deriving DecidableEq, Repr

/-- The registers the spec numbers (spec/10_state.md R36). -/
inductive Reg where
  | s0 | s1 | s2 | s3 | s4 | s5 | s6 | s7 | s8
  | c0 | c1 | c2 | c3
  | k0 | k1
deriving DecidableEq, Repr

/-- What a numbered register shows (spec/10_state.md R36): a number, a budget, the table, or no value (R38). -/
inductive RegValue where
  | nat (n : Nat)
  | budget (b : Option Nat)
  | table (t : Table)
  | noValue
deriving DecidableEq, Repr

/-- The state of one engine instance. -/
structure State where
  /-- the instance's parameters, written by no step (spec/00_scope.md R7) -/
  params           : Params
  /-- `ACC`; `none` is "holds no value" (R22) -/
  acc              : Option Byte
  /-- `FRAME[0..3]`; `none` is "holds no value" (R23) -/
  frame            : Option ByteFrame
  /-- `SYNC_STATE` (R26) -/
  syncState        : SyncState
  /-- `CURSOR` (R27) -/
  cursor           : Nat
  /-- `PHASE` (R28) -/
  phase            : Phase
  /-- `STOP_REASON` (R29) -/
  stopReason       : StopReason
  /-- `VALID` (R30) -/
  valid            : Nat
  /-- `HEADER_MISMATCHES` (R30) -/
  headerMismatches : Nat
  /-- `CHECKSUM_FAILURES` (R30) -/
  checksumFailures : Nat
  /-- `TIMEOUTS` (R30) -/
  timeouts         : Nat
  /-- `CANCEL`: the level the caller holds, which no operation writes (R32; log 2) -/
  cancel           : Bool
  /-- `BUDGET`, `TIMESTAMPS_ENABLED`, `RESYNC_MODE`; `none` is "no value until RUN" (R33, R38; log 10) -/
  runConfig        : Option RunConfig
  /-- `CHANNEL_OPEN` (R34) -/
  channelOpen      : Bool
  /-- `EVENTS`, oldest first (R35) -/
  events           : List Event
  /-- input channel: the bytes of the stream from CURSOR on that are listed (spec/20_memory.md R50, R57; log 3) -/
  input            : List Byte
  /-- the stream ends after `input` (spec/43_pipeline.md R180); otherwise free bytes follow (log 3) -/
  sourceEnds       : Bool
  /-- output channel: the bytes sent, oldest first (spec/20_memory.md R50; log 4) -/
  output           : List Byte
  /-- the samples handed to the sink, oldest first (spec/43_pipeline.md R177) -/
  sink             : List Sample
  /-- MODEL: the caller's requests not yet run that are written as image bytes (spec/30_encoding.md R94; log 6) -/
  program          : List Byte
  /-- MODEL: the caller's requests not yet run that pass their operands by value, oldest first (spec/30_encoding.md R92; log 26) -/
  requests         : List Instr
  /-- MODEL: the operation the engine has issued and not yet run, as image bytes (spec/30_encoding.md R93; log 7) -/
  engineReq        : List Byte
  /-- MODEL: what the last operation returned (log 8) -/
  result           : Option OpResult
  /-- MODEL: the channel's answers to the next reads (log 3) -/
  readDraws        : List ReadDraw
  /-- MODEL: the channel's answers to the next writes (log 4) -/
  writeDraws       : List WriteDraw
  /-- MODEL: how far the clock moves on before each of its next draws (log 5) -/
  clockDraws       : List Nat
  /-- MODEL: the clock's last answer (log 5) -/
  clockNow         : Nat
  /-- MODEL: the levels the caller sets CANCEL to after each of the next steps (log 2) -/
  cancelInputs     : List Bool
  /-- MODEL: how many free values were drawn (log 3) -/
  drawNo           : Nat
deriving DecidableEq, Repr

/-- Why the machine stops for good (spec/60_exceptions.md R228). Each is safe: the engine itself never faults, and no
rule makes the access. -/
inductive Fault where
  /-- raised by a read of ACC while it holds no value (R228, R22); safe -/
  | accNoValue
  /-- raised by a read of FRAME while it holds no value (R228, R23); safe -/
  | frameNoValue
  /-- raised by an increment past a fixed COUNTER_WIDTH (R228, spec/10_state.md R31); safe -/
  | counterOverflow (c : Counter)
  /-- raised by the run loop reading BUDGET or TIMESTAMPS_ENABLED while RUN has latched none (R33; log 11); safe -/
  | runConfigNoValue
deriving DecidableEq, Repr

/-- Why the model gives a request no meaning (spec/60_exceptions.md R227). Each is safe: it changes no state. -/
inductive Refusal where
  /-- raised by exec's arm of an instruction without a meaning; safe -/
  | notModelled (mnemonic : String)
  /-- raised by the fetch: the request is refused before it runs (spec/30_encoding.md R93, R94); safe -/
  | undecodable (r : Reject)
  /-- raised by every operation under a table that is no permutation (spec/40_crc8.md R103); safe -/
  | tableNotPermutation
  /-- raised by CRC_COMPUTE when `length > |data|` (spec/40_crc8.md R102); safe -/
  | lengthBeyondData
  /-- raised by RUN asked for HeaderHunt (spec/42_stream_sync.md R157); safe -/
  | headerHunt
  /-- raised by INIT_MODE, RUN, NEXT_FRAME and RUN_STEP outside the phase they need (R227); safe -/
  | wrongPhase (needed : Phase)
  /-- raised by an operation that needs `CHANNEL_OPEN = true` (spec/10_state.md R34); safe -/
  | channelClosed
deriving DecidableEq, Repr

/-- The state after process start with an open channel handed over (spec/10_state.md R38,
spec/70_reset_and_hazards.md R250). Nothing of the environment is listed: every byte and every answer is free. -/
def State.reset : State :=
  { params := Config.params
    acc := none
    frame := none
    syncState := .aligned
    cursor := 0
    phase := .reset
    stopReason := .none
    valid := 0
    headerMismatches := 0
    checksumFailures := 0
    timeouts := 0
    cancel := false
    runConfig := none
    channelOpen := true
    events := []
    input := []
    sourceEnds := false
    output := []
    sink := []
    program := []
    requests := []
    engineReq := []
    result := none
    readDraws := []
    writeDraws := []
    clockDraws := []
    clockNow := 0
    cancelInputs := []
    drawNo := 0 }

/-- What the machine does next. -/
inductive Fetched where
  /-- the caller has no request -/
  | idle
  /-- RUN is in progress between two attempts (spec/43_pipeline.md R172) -/
  | check
  /-- run `i` at `s`, its request taken -/
  | op (i : Instr) (s : State)
  /-- the request is refused -/
  | reject (r : Reject)
deriving DecidableEq, Repr

end Sys2Proof.Machine
end

