-- ==== Sys2Proof/Machine/Ops.lean ====
section
/-! DEFINITION. The shared operations over the engine's storage and its environment: table, ACC, FRAME, counters, channel,
clock, CANCEL, sink, trace, and the one way an operation ends (spec/20_memory.md, spec/00_scope.md R10). -/

namespace Sys2Proof.Machine

/-- What a meaning answers. -/
abbrev Answer := Host.Outcome State Fault Refusal

/-- Go on only after a next state. -/
def andThen (o : Answer) (k : State → Answer) : Answer :=
  match o with
  | .next s => k s
  | .fault r => .fault r
  | .refused r => .refused r

/-- `return v` and `raise E` (spec/00_scope.md R10): both end the operation with a result value, never a trap
(spec/60_exceptions.md R225). The engine's counterpart of taking an exception. -/
def finish (r : OpResult) (s : State) : Answer := .next { s with result := some r }

/-- Append one entry to `EVENTS` (spec/10_state.md R35). -/
def logEvent (e : Event) (s : State) : State := { s with events := s.events ++ [e] }

/-! ### The table -/

/-- The set of values a list of bytes holds, as a number with one bit per value. -/
def valueMask (l : List Byte) : Nat := l.foldl (fun m b => m ||| (1 <<< b.toNat)) 0

/-- The table is a permutation of 0..255 (spec/40_crc8.md R103): its 256 entries take all 256 values. -/
def isPermutation (t : Table) : Bool := valueMask t.toList == 2 ^ 256 - 1

/-- `CRC_TABLE[i]` (spec/20_memory.md R51): an 8-bit index is never out of range (R52). -/
def tableRead (t : Table) (i : Byte) : Byte := t[i.toNat]'i.isLt

/-- Any operation is refused under a table that is not a permutation (spec/60_exceptions.md R227). -/
def needTable (s : State) (body : Answer) : Answer :=
  if isPermutation s.params.crcTable then body else .refused .tableNotPermutation

/-- The request is refused outside the phase its precondition names (spec/60_exceptions.md R227). -/
def needPhase (p : Phase) (s : State) (body : Answer) : Answer :=
  if s.phase = p then body else .refused (.wrongPhase p)

/-- The precondition `CHANNEL_OPEN = true` (spec/10_state.md R34). -/
def needChannel (s : State) (body : Answer) : Answer :=
  if s.channelOpen then body else .refused .channelClosed

/-! ### ACC -/

/-- `ACC <- 0x00` (spec/40_crc8.md R102). -/
def accStart (s : State) : State := { s with acc := some 0x00 }

/-- The value of ACC; reading it while it holds none is the model fault of spec/60_exceptions.md R228. -/
def accRead (s : State) (k : Byte → Answer) : Answer :=
  match s.acc with
  | some a => k a
  | none => .fault .accNoValue

/-! ### FRAME -/

/-- The window; reading it while it holds no value is the model fault of spec/60_exceptions.md R228. -/
def frameRead (s : State) (k : ByteFrame → Answer) : Answer :=
  match s.frame with
  | some f => k f
  | none => .fault .frameNoValue

/-! ### Counters -/

/-- A counter's value. -/
def counterValue (c : Counter) (s : State) : Nat :=
  match c with
  | .valid => s.valid
  | .headerMismatches => s.headerMismatches
  | .checksumFailures => s.checksumFailures
  | .timeouts => s.timeouts

/-- The increment fits the counter's width (spec/10_state.md R31): always, when the width is unbounded. -/
def counterFits (width : Option Nat) (n : Nat) : Bool :=
  match width with
  | none => true
  | some w => decide (n + 1 ≤ 2 ^ w - 1)

/-- The state with one counter one higher. -/
def counterUp (c : Counter) (s : State) : State :=
  match c with
  | .valid => { s with valid := s.valid + 1 }
  | .headerMismatches => { s with headerMismatches := s.headerMismatches + 1 }
  | .checksumFailures => { s with checksumFailures := s.checksumFailures + 1 }
  | .timeouts => { s with timeouts := s.timeouts + 1 }

/-- `c <- c + 1` over the naturals; past a fixed width it faults and never wraps (spec/10_state.md R31). -/
def count (c : Counter) (s : State) : Answer :=
  if counterFits s.params.counterWidth (counterValue c s) then .next (counterUp c s) else .fault (.counterOverflow c)

/-! ### The input channel -/

/-- The first `k` bytes of the input stream from CURSOR on: listed bytes, then, unless the source ends there, free
bytes by their position in the stream (spec/20_memory.md R56; log 3). -/
def streamTake (k : Nat) (s : State) : List Byte :=
  s.input.take k ++
    (if s.sourceEnds then [] else
      (List.range (k - s.input.length)).map fun i => Config.freeByte (s.cursor + s.input.length + i))

/-- The channel's draw for one read: the next one given, else a free one. -/
def readDraw (s : State) : ReadDraw :=
  match s.readDraws with
  | d :: _ => d
  | [] => Config.freeRead s.drawNo

/-- The state once that draw is used up. -/
def afterReadDraw (s : State) : State :=
  match s.readDraws with
  | _ :: ds => { s with readDraws := ds }
  | [] => { s with drawNo := s.drawNo + 1 }

/-- Reading consumes: the bytes leave the stream and CURSOR counts them (spec/20_memory.md R57). -/
def consume (n : Nat) (s : State) : State := { s with input := s.input.drop n, cursor := s.cursor + n }

/-- `ChanRead(n)` (spec/20_memory.md R56, R57): a failure consumes nothing. A draw may fail on an exhausted source as on any
other: spec/43_pipeline.md R180 says such a source keeps answering short reads, and that it can fail as well is the model's
choice (log 3). -/
def chanRead (n : Nat) (s : State) : ReadAnswer × State :=
  match readDraw s with
  | .fail => (.fail, afterReadDraw s)
  | .bytes k =>
    let got := streamTake (min k n) s
    (.bytes got, consume got.length (afterReadDraw s))

/-! ### The output channel -/

/-- The channel's draw for one write: the next one given, else a free one. -/
def writeDraw (s : State) : WriteDraw :=
  match s.writeDraws with
  | d :: _ => d
  | [] => Config.freeWrite s.drawNo

/-- The state once that draw is used up. -/
def afterWriteDraw (s : State) : State :=
  match s.writeDraws with
  | _ :: ds => { s with writeDraws := ds }
  | [] => { s with drawNo := s.drawNo + 1 }

/-- `ChanWrite(s)` (spec/20_memory.md R58): `Ok` when all bytes were sent; a write that sent fewer is `Fail`, and how
many it sent is the draw's (log 4). -/
def chanWrite (bytes : List Byte) (s : State) : WriteAnswer × State :=
  match writeDraw s with
  | .ok => (.ok, { afterWriteDraw s with output := s.output ++ bytes })
  | .fail sent => (.fail, { afterWriteDraw s with output := s.output ++ bytes.take (min sent (bytes.length - 1)) })

/-- `ChanClose()` with its trace entry (spec/20_memory.md R59, spec/43_pipeline.md R176): always succeeds on an open
channel. -/
def chanClose (s : State) : Answer :=
  needChannel s (.next (logEvent .close { s with channelOpen := false }))

/-! ### Clock, CANCEL, sink -/

/-- How far the clock moved on before this draw: as given, else free. -/
def clockDraw (s : State) : Nat :=
  match s.clockDraws with
  | d :: _ => d
  | [] => Config.freeElapsed s.drawNo

/-- The state after `Clock()` (spec/43_pipeline.md R178): the new value is `clockNow`, never below the one before. -/
def tickClock (s : State) : State :=
  match s.clockDraws with
  | d :: ds => { s with clockNow := s.clockNow + d, clockDraws := ds }
  | [] => { s with clockNow := s.clockNow + Config.freeElapsed s.drawNo, drawNo := s.drawNo + 1 }

/-- The caller's turn between two steps: CANCEL takes the level the caller gives it, in every phase
(spec/10_state.md R32, R36: written by the caller at any time; log 2). -/
def callerTurn (s : State) : State :=
  match s.cancelInputs with
  | c :: cs => { s with cancel := c, cancelInputs := cs }
  | [] => { s with cancel := Config.freeCancel s.drawNo, drawNo := s.drawNo + 1 }

/-- What the engine did, then the caller's turn. -/
def thenCaller (o : Answer) : Answer := andThen o fun s => .next (callerTurn s)

/-- `SinkEmit(sample)` (spec/43_pipeline.md R177): always succeeds, in order. -/
def sinkEmit (x : Sample) (s : State) : State := { s with sink := s.sink ++ [x] }

/-! ### Stopping -/

/-- RUN's summary (spec/43_pipeline.md R179). -/
def summary (s : State) : Summary :=
  { valid := s.valid
    headerMismatches := s.headerMismatches
    checksumFailures := s.checksumFailures
    timeouts := s.timeouts }

/-- Set the reason, close the channel, end in STOPPED with the given result: RUN's STOP (spec/43_pipeline.md R170, R175)
and INIT_MODE's failure (spec/44_mode_init.md R200). -/
def stopWith (reason : StopReason) (r : OpResult) (s : State) : Answer :=
  andThen (chanClose { s with stopReason := reason }) fun s1 => finish r { s1 with phase := .stopped }

end Sys2Proof.Machine
end

