-- ==== Sys2Proof/Machine/Operands.lean ====
section
/-! DEFINITION. The operand forms of the operations (spec/30_encoding.md R92): bytes, a byte list with a count, four frame
bytes, a 16-bit code, a mode; the distance code's assembly (R72), and the numbered view of the registers
(spec/10_state.md R36). -/

namespace Sys2Proof.Machine

/-- The bytes of a window in wire order (spec/20_memory.md R54). -/
def frameBytes (f : ByteFrame) : List Byte := [f.b0, f.b1, f.b2, f.b3]

/-- The window four received bytes make (spec/42_stream_sync.md R151); any other count makes none. -/
def frameOfBytes : List Byte → Option ByteFrame
  | [b0, b1, b2, b3] => some ⟨b0, b1, b2, b3⟩
  | _ => none

/-- `rawCode <- (zext_16(FRAME[2]) << 8) | zext_16(FRAME[1])`, unsigned, little-endian (spec/30_encoding.md R72). -/
def rawCode (f : ByteFrame) : Code16 := (f.b2.setWidth 16 <<< 8) ||| f.b1.setWidth 16

/-- The command bytes of a mode (spec/44_mode_init.md R200). -/
def modeCommand (mode : Mode) (p : Params) : ByteFrame :=
  match mode with
  | .binary => p.binaryModeCommand
  | .text => p.textModeCommand

/-- S0's number for a phase (spec/10_state.md R36). -/
def phaseCode : Phase → Nat
  | .reset => 0
  | .ready => 1
  | .running => 2
  | .stopped => 3

/-- S1's number for a stop reason (spec/10_state.md R36). -/
def stopReasonCode : StopReason → Nat
  | .none => 0
  | .budgetReached => 1
  | .cancelled => 2
  | .transportFailure => 3
  | .initFailed => 4

/-- C2's number for a strategy (spec/10_state.md R36 names one). -/
def resyncCode : ResyncMode → RegValue
  | .wholeFrameDiscard => .nat 0
  | .headerHunt => .noValue

/-- A latched register before RUN holds no value (spec/10_state.md R38). -/
def latched (s : State) (k : RunConfig → RegValue) : RegValue :=
  match s.runConfig with
  | some c => k c
  | none => .noValue

/-- What each numbered register shows (spec/10_state.md R36). -/
def readReg (r : Reg) (s : State) : RegValue :=
  match r with
  | .s0 => .nat (phaseCode s.phase)
  | .s1 => .nat (stopReasonCode s.stopReason)
  | .s2 => .nat s.valid
  | .s3 => .nat s.headerMismatches
  | .s4 => .nat s.checksumFailures
  | .s5 => .nat s.timeouts
  | .s6 => .nat s.cursor
  | .s7 => .nat (match s.syncState with | .aligned => 0)
  | .s8 => .nat s.channelOpen.toNat
  | .c0 => latched s fun c => .budget c.budget
  | .c1 => latched s fun c => .nat c.timestamps.toNat
  | .c2 => latched s fun c => resyncCode c.resync
  | .c3 => .nat s.cancel.toNat
  | .k0 => .nat Config.header.toNat
  | .k1 => .table s.params.crcTable

end Sys2Proof.Machine
end

