-- ==== Sys2Proof/Machine/Flags.lean ====
section
/-! DEFINITION. The engine has no flags and no condition codes (spec/10_state.md R37): the outcome of an operation is its
result value. Here stand the numbers the spec assigns to those outcomes (spec/60_exceptions.md R220, spec/30_encoding.md
R76). -/

namespace Sys2Proof.Machine

/-- A decode error's code (spec/60_exceptions.md R220). -/
def decodeErrorCode : DecodeError → Nat
  | .headerMismatch => 1
  | .checksumFailed => 2

/-- A synchronizer error's code (spec/60_exceptions.md R220). -/
def syncErrorCode : SyncError → Nat
  | .timeout => 3
  | .transportFailure => 4

/-- The initializer error's code (spec/60_exceptions.md R220). -/
def initErrorCode : InitError → Nat
  | .writeFailed => 5

/-- An attempt's outcome as an error code (spec/60_exceptions.md R220): 0 is `Ok`. -/
def attemptCode : AttemptOutcome → Nat
  | .valid _ => 0
  | .headerMismatch => decodeErrorCode .headerMismatch
  | .checksumFailed => decodeErrorCode .checksumFailed
  | .timeout => syncErrorCode .timeout
  | .transportFailure => syncErrorCode .transportFailure

/-- The error code of a returned value (spec/60_exceptions.md R220): 0 is `Ok`. -/
def resultCode : OpResult → Nat
  | .crc _ => 0
  | .decoded (.ok _) => 0
  | .decoded (.err e) => decodeErrorCode e
  | .classified _ => 0
  | .frame (.ok _) => 0
  | .frame (.err e) => syncErrorCode e
  | .attempt o => attemptCode o
  | .run _ _ => 0
  | .init (.ok _) => 0
  | .init (.err e) => initErrorCode e
  | .closed => 0

/-- The 2-bit code of a classification (spec/30_encoding.md R76). -/
def classCode : Classification → Nat
  | .negativeInfinity => 0
  | .negativeOne => 1
  | .positiveInfinity => 2
  | .measurement _ => 3

/-- The counter an attempt's outcome adds 1 to, or none (spec/43_pipeline.md R173). -/
def counterOf : AttemptOutcome → Option Counter
  | .valid _ => some .valid
  | .headerMismatch => some .headerMismatches
  | .checksumFailed => some .checksumFailures
  | .timeout => some .timeouts
  | .transportFailure => none

end Sys2Proof.Machine
end

