-- ==== Sys2Proof/Machine/Crc.lean ====
section
/-! DEFINITION. The CRC-8 engine: CRC_STEP and CRC_COMPUTE (spec/40_crc8.md). -/

namespace Sys2Proof.Machine

/-- One table-driven update of the accumulator (spec/40_crc8.md R101). -/
def crcUpdate (t : Table) (acc b : Byte) : Byte := tableRead t (acc ^^^ b)

/-- The checksum of a byte sequence: from 0x00, first byte first (spec/40_crc8.md R102). Pure, as DECODE uses it
(spec/41_frame_decoder.md R122). -/
def crcOf (t : Table) (data : List Byte) : Byte := data.foldl (crcUpdate t) 0x00

/-- `ACC <- CRC_STEP(ACC, b)` for each byte in order (spec/40_crc8.md R102). -/
def accFeed : List Byte → State → Answer
  | [], s => .next s
  | b :: rest, s => accRead s fun a => accFeed rest { s with acc := some (crcUpdate s.params.crcTable a b) }

/-- `return ACC`; ACC holds no value afterwards (spec/40_crc8.md R102). -/
def accReturn (s : State) : Answer := accRead s fun a => finish (.crc a) { s with acc := none }

/-- CRC_STEP (spec/40_crc8.md R101): no state written but the returned value. -/
def execCrcStep (acc b : Byte) (s : State) : Answer :=
  needTable s (finish (.crc (crcUpdate s.params.crcTable acc b)) s)

/-- CRC_COMPUTE (spec/40_crc8.md R102). -/
def execCrcCompute (data : List Byte) (len : Nat) (s : State) : Answer :=
  needTable s <|
    if data.length < len then .refused .lengthBeyondData
    else andThen (accFeed (data.take len) (accStart s)) accReturn

/-- The generation law of `T07` for one entry: eight shifts, MSB first, polynomial 0x07 (spec/40_crc8.md R105). -/
def crcShift : Nat → Byte → Byte
  | 0, c => c
  | n + 1, c => crcShift n (if c.getLsbD 7 then (c <<< 1) ^^^ 0x07 else c <<< 1)

/-- The bitwise CRC-8 with polynomial 0x07, initial value 0, no reflection, no final XOR (spec/40_crc8.md R106). -/
def bitwiseCrc (data : List Byte) : Byte := data.foldl (fun acc b => crcShift 8 (acc ^^^ b)) 0x00

end Sys2Proof.Machine
end

