-- ==== Sys2Proof/Machine/FrameDecoder.lean ====
section
/-! DEFINITION. The frame decoder: DECODE and CLASSIFY (spec/41_frame_decoder.md). Both are pure (R125): they write
nothing but their returned value. -/

namespace Sys2Proof.Machine

/-- The classification of a distance code (spec/41_frame_decoder.md R124, spec/30_encoding.md R75). -/
def classify (code : Code16) : Classification :=
  if code = 0x0000 then .negativeInfinity
  else if code = 0x0001 then .negativeOne
  else if code = 0xFFFF then .positiveInfinity
  else .measurement code.toNat

/-- DECODE's outcome (spec/41_frame_decoder.md R120): header check, then checksum check, then extraction. -/
def decodeFrame (t : Table) (f : ByteFrame) : Result Sample DecodeError :=
  if f.b0 ≠ Config.header then .err .headerMismatch
  else if crcOf t [f.b0, f.b1, f.b2] ≠ f.b3 then .err .checksumFailed
  else .ok { rawCode := rawCode f, classification := classify (rawCode f), capturedAt := none }

/-- DECODE (spec/41_frame_decoder.md R120). -/
def execDecode (b0 b1 b2 b3 : Byte) (s : State) : Answer :=
  needTable s (finish (.decoded (decodeFrame s.params.crcTable ⟨b0, b1, b2, b3⟩)) s)

/-- CLASSIFY (spec/41_frame_decoder.md R124). -/
def execClassify (code : Code16) (s : State) : Answer :=
  needTable s (finish (.classified (classify code)) s)

end Sys2Proof.Machine
end

