-- ==== Sys2Proof/Machine/StreamSync.lean ====
section
/-! DEFINITION. The stream synchronizer: NEXT_FRAME (spec/42_stream_sync.md). -/

namespace Sys2Proof.Machine

/-- One window read and what it leaves (spec/42_stream_sync.md R151): FRAME filled by a full read, without a value after
a short or a failed one; the bytes of a short read are dropped (R153; log 14). -/
def pullFrame (s : State) : Result ByteFrame SyncError × State :=
  match chanRead Config.frameLen s with
  | (.fail, s1) => (.err .transportFailure, { s1 with frame := none })
  | (.bytes got, s1) =>
    match frameOfBytes got with
    | some f => (.ok f, { s1 with frame := some f })
    | none => (.err .timeout, { s1 with frame := none })

/-- NEXT_FRAME (spec/42_stream_sync.md R151). -/
def execNextFrame (s : State) : Answer :=
  needTable s <| needPhase .running s <| needChannel s <| finish (.frame (pullFrame s).1) (pullFrame s).2

end Sys2Proof.Machine
end

