-- ==== Sys2Proof/Machine/Pipeline.lean ====
section
/-! DEFINITION. The sample pipeline: RUN, RUN_STEP, CLOSE, and the run loop between them (spec/43_pipeline.md). -/

namespace Sys2Proof.Machine

/-- The end of an attempt: its counter, its trace entry, its result (spec/43_pipeline.md R171, R173, R181). -/
def endAttempt (o : AttemptOutcome) (s : State) : Answer :=
  match counterOf o with
  | some c => andThen (count c s) fun s1 => finish (.attempt o) (logEvent (.attempt o) s1)
  | none => finish (.attempt o) (logEvent (.attempt o) s)

/-- The clock draw after a full read, when timestamps are enabled (spec/43_pipeline.md R174). -/
def stamp (enabled : Bool) (s : State) : Option Nat × State :=
  if enabled then (some (tickClock s).clockNow, tickClock s) else (none, s)

/-- Decode the window and account for it, with the timestamp drawn after the read (spec/43_pipeline.md R171). -/
def decodeAttempt (t : Option Nat) (s : State) : Answer :=
  frameRead s fun f =>
    match decodeFrame s.params.crcTable f with
    | .err .headerMismatch => endAttempt .headerMismatch s
    | .err .checksumFailed => endAttempt .checksumFailed s
    | .ok x => endAttempt (.valid { x with capturedAt := t }) (sinkEmit { x with capturedAt := t } s)

/-- One attempt under the latched configuration (spec/43_pipeline.md R171). -/
def attempt (c : RunConfig) (s : State) : Answer :=
  match pullFrame s with
  | (.err .transportFailure, s1) => endAttempt .transportFailure s1
  | (.err .timeout, s1) => endAttempt .timeout s1
  | (.ok _, s1) => decodeAttempt (stamp c.timestamps s1).1 (stamp c.timestamps s1).2

/-- The latched configuration; no rule reads it before RUN has latched one (spec/10_state.md R33, R38; log 11). -/
def configRead (s : State) (k : RunConfig → Answer) : Answer :=
  match s.runConfig with
  | some c => k c
  | none => .fault .runConfigNoValue

/-- RUN_STEP (spec/43_pipeline.md R171). -/
def execRunStep (s : State) : Answer :=
  needTable s <| needPhase .running s <| needChannel s <| configRead s fun c => attempt c s

/-- RUN's start: latch the configuration, clear the counters, enter RUNNING (spec/43_pipeline.md R170,
spec/70_reset_and_hazards.md R251). CURSOR is not reset. -/
def startRun (budget : Option Nat) (ts : Bool) (s : State) : State :=
  { s with
    runConfig := some { budget := budget, timestamps := ts, resync := .wholeFrameDiscard }
    valid := 0
    headerMismatches := 0
    checksumFailures := 0
    timeouts := 0
    phase := .running
    result := none }

/-- RUN (spec/43_pipeline.md R170): it starts here; the loop goes on in the machine's further steps, since it need not
end (R180; log 1), and RUN's result stands at its stop. HeaderHunt is refused (spec/42_stream_sync.md R157). -/
def execRun (budget : Option Nat) (ts : Bool) (resync : ResyncMode) (s : State) : Answer :=
  needTable s <|
    match resync with
    | .headerHunt => .refused .headerHunt
    | .wholeFrameDiscard => needPhase .ready s <| needChannel s <| .next (startRun budget ts s)

/-- CLOSE (spec/43_pipeline.md R176). -/
def execClose (s : State) : Answer := needTable s (andThen (chanClose s) (finish .closed))

/-! ### The loop of RUN -/

/-- `BUDGET = some(n) and VALID >= n` (spec/43_pipeline.md R170). -/
def budgetMet (budget : Option Nat) (valid : Nat) : Bool :=
  match budget with
  | some n => decide (n ≤ valid)
  | none => false

/-- `STOP(reason)` (spec/43_pipeline.md R170, R175): RUN returns its summary with the reason (R179). -/
def stopRun (reason : StopReason) (s : State) : Answer := stopWith reason (.run (summary s) reason) s

/-- The engine issues RUN_STEP (spec/30_encoding.md R93, spec/43_pipeline.md R170). -/
def issueRunStep (s : State) : State := { s with engineReq := encode .runStep }

/-- The between-frame check (spec/43_pipeline.md R172): the budget first, then CANCEL as the caller holds it, then the next
attempt. -/
def betweenFrames (s : State) : Answer :=
  configRead s fun c =>
    if budgetMet c.budget s.valid then stopRun .budgetReached s
    else if s.cancel then stopRun .cancelled s
    else .next (issueRunStep s)

/-- What RUN does with the value RUN_STEP returned (spec/43_pipeline.md R170): a TransportFailure stops the run. -/
def afterAttempt (s : State) : Answer :=
  match s.result with
  | some (.attempt .transportFailure) => stopRun .transportFailure s
  | _ => .next s

/-- What the machine adds around an operation: RUN's loop after RUN_STEP, nothing after any other. -/
def afterOp (i : Instr) (o : Answer) : Answer :=
  match i with
  | .crcStep _ _ => o
  | .crcCompute _ _ => o
  | .decode _ _ _ _ => o
  | .classify _ => o
  | .nextFrame => o
  | .runStep => andThen o afterAttempt
  | .run _ _ _ => o
  | .initMode _ => o
  | .close => o

/-! ### Where the next operation comes from -/

/-- Decode one operation for its issuer and go on where its bytes are taken (spec/30_encoding.md R93, R94). The decoder's
grounds for a refusal come before the operation's own (the model's choice, log 24). -/
def fetchFrom (who : Issuer) (bytes : List Byte) (taken : List Byte → State) : Fetched :=
  match decodeOp who bytes with
  | .ok (i, rest) => .op i (taken rest)
  | .error r => .reject r

/-- One request of the caller with its operands passed by value (spec/30_encoding.md R92), of any size; an engine-internal one
is refused (R93). -/
def takeRequest (i : Instr) (taken : State) : Fetched :=
  match i.issuer with
  | .caller => .op i taken
  | .engine => .reject (.engineInternal (opCode i))

/-- The caller's next request: the front of its image (spec/30_encoding.md R94), then the first one passed by value (R92), or
none. That the image comes first is the model's choice (log 26). An image cut short in a later operation is refused where that
operation is reached, the ones before it having run (the model's choice, log 25). -/
def fetchCaller (s : State) : Fetched :=
  match s.program with
  | [] =>
    match s.requests with
    | [] => .idle
    | i :: rest => takeRequest i { s with requests := rest }
  | _ :: _ => fetchFrom .caller s.program fun rest => { s with program := rest }

/-- The engine's own request first; during RUN, between two attempts, the check; otherwise the caller's request
(spec/10_state.md R21). -/
def fetch (s : State) : Fetched :=
  match s.engineReq with
  | _ :: _ => fetchFrom .engine s.engineReq fun _ => { s with engineReq := [] }
  | [] =>
    match s.phase with
    | .running => .check
    | .reset => fetchCaller s
    | .ready => fetchCaller s
    | .stopped => fetchCaller s

/-- The bytes stand where the next step fetches its operation: in the engine's request slot when only the engine may
issue the code or a RUN is in progress, else as the caller's image (log 21). -/
def placeOp (nbits w : Nat) (s : State) : State :=
  if issuerOfCode w = .engine ∨ s.phase = .running then { s with engineReq := tableBytes nbits w }
  else { s with engineReq := [], program := tableBytes nbits w }

end Sys2Proof.Machine
end

