-- ==== Sys2Proof/Machine/ModeInit.lean ====
section
/-! DEFINITION. The mode initializer: INIT_MODE (spec/44_mode_init.md). -/

namespace Sys2Proof.Machine

/-- The mode-select command sent, with its trace entry, and what the channel answered (spec/44_mode_init.md R200). -/
def sendCommand (mode : Mode) (s : State) : WriteAnswer × State :=
  let cmd := frameBytes (modeCommand mode s.params)
  ((chanWrite cmd s).1, logEvent (.write cmd (chanWrite cmd s).1) (chanWrite cmd s).2)

/-- INIT_MODE (spec/44_mode_init.md R200): READY when the write answers Ok; otherwise INIT_FAILED, CLOSE, STOPPED and
WriteFailed (spec/60_exceptions.md R226). -/
def execInitMode (mode : Mode) (s : State) : Answer :=
  needTable s <| needPhase .reset s <| needChannel s <|
    match sendCommand mode s with
    | (.ok, s1) => finish (.init (.ok ())) { s1 with phase := .ready }
    | (.fail, s1) => stopWith .initFailed (.init (.err .writeFailed)) s1

end Sys2Proof.Machine
end

