-- ==== Sys2Proof/Machine/Dispatch.lean ====
section
/-! DEFINITION. One arm per operation (spec/30_encoding.md R90). -/

namespace Sys2Proof.Machine

def exec (i : Instr) (s : State) : Host.Outcome State Fault Refusal :=
  match i with
  | .crcStep acc b => Sys2Proof.Machine.execCrcStep acc b s
  | .crcCompute data len => Sys2Proof.Machine.execCrcCompute data len s
  | .decode b0 b1 b2 b3 => Sys2Proof.Machine.execDecode b0 b1 b2 b3 s
  | .classify code => Sys2Proof.Machine.execClassify code s
  | .nextFrame => Sys2Proof.Machine.execNextFrame s
  | .runStep => Sys2Proof.Machine.execRunStep s
  | .run budget ts resync => Sys2Proof.Machine.execRun budget ts resync s
  | .initMode mode => Sys2Proof.Machine.execInitMode mode s
  | .close => Sys2Proof.Machine.execClose s

end Sys2Proof.Machine
end

