-- ==== Sys2Proof/Machine/Step.lean ====
section
/-! DEFINITION. One step of the machine: the next operation, the engine's own or the caller's, or RUN's check between two
attempts (spec/10_state.md R21; log 1, log 6); and the caller's turn after it (R32; log 2). -/

namespace Sys2Proof.Machine

/-- What the engine does in one step. A refusal by the fetch comes before any test of the operation itself (the model's
choice, log 24). -/
def engineStep (s : State) : Host.Outcome State Fault Refusal :=
  match fetch s with
  | .idle => .next s
  | .check => betweenFrames s
  | .op i s1 => afterOp i (exec i s1)
  | .reject r => .refused (.undecodable r)

/-- One step: the engine's, then the caller's turn, in which CANCEL may change. -/
def step (s : State) : Host.Outcome State Fault Refusal := thenCaller (engineStep s)

/-- `s` with one instruction where the next step fetches it (log 21). -/
def State.withFetchWord (s : State) (nbits w : Nat) : State := placeOp nbits w s

end Sys2Proof.Machine
end

