-- ==== Sys2Proof/Machine/SinkLog.lean ====
section
/-! DEFINITION. The record encodings of the reference sink that writes two binary logs (spec/30_encoding.md R79). The sink
is outside the engine; no operation depends on this file. -/

namespace Sys2Proof.Machine

/-- `[rawCode[7:0], rawCode[15:8]]` (R79). -/
def distanceRecord (x : Sample) : List Byte := [byteOf x.rawCode.toNat 0, byteOf x.rawCode.toNat 1]

/-- `[d[7:0], d[15:8], d[23:16], d[31:24]]` (R79). -/
def deltaRecord (d : BitVec 32) : List Byte :=
  [byteOf d.toNat 0, byteOf d.toNat 1, byteOf d.toNat 2, byteOf d.toNat 3]

/-- The distance-code stream: one record per valid sample, in order (R79). -/
def distanceLog (s : State) : List Byte := s.sink.flatMap distanceRecord

/-- The timestamp-delta stream: one record per valid sample, in the same order; the deltas are free (R79; log 19). -/
def deltaLog (s : State) : List Byte :=
  (List.range s.sink.length).flatMap fun n => deltaRecord (Config.freeLogDelta n)

end Sys2Proof.Machine
end

