-- ==== Sys2Proof/Safety.lean ====
section
/-! DEFINITION. What counts as a safe run: the invariants of one engine instance, over all its steps, and the readings of
the trace they speak of. -/

namespace Sys2Proof.Safety

open Sys2Proof.Machine

/-- The instance's table is one the spec admits (spec/40_crc8.md R103). -/
def Admitted (s : State) : Prop := isPermutation s.params.crcTable = true

/-- What an attempt needs (spec/43_pipeline.md R171, spec/42_stream_sync.md R151), with the configuration RUN latched. -/
structure Attempting (s : State) (c : RunConfig) : Prop where
  admitted : Admitted s
  running : s.phase = .running
  channel : s.channelOpen = true
  config : s.runConfig = some c

/-- The outcome of a full window without a timestamp (spec/30_encoding.md R74, spec/43_pipeline.md R171). -/
def outcomeOf (t : Table) (f : ByteFrame) : AttemptOutcome :=
  if f.b0 ≠ 0x54 then .headerMismatch
  else if crcOf t [f.b0, f.b1, f.b2] ≠ f.b3 then .checksumFailed
  else .valid { rawCode := f.b2 ++ f.b1, classification := classify (f.b2 ++ f.b1), capturedAt := none }

/-- The sample an entry of `EVENTS` records as emitted (spec/10_state.md R35). -/
def sampleOf : Event → Option Sample
  | .attempt (.valid x) => some x
  | .attempt .headerMismatch => none
  | .attempt .checksumFailed => none
  | .attempt .timeout => none
  | .attempt .transportFailure => none
  | .write _ _ => none
  | .close => none

/-- The counter an entry of `EVENTS` stands for (spec/43_pipeline.md R173, R181). -/
def counterOfEvent : Event → Option Counter
  | .attempt o => counterOf o
  | .write _ _ => none
  | .close => none

/-- How many entries of `EVENTS` stand for a counter. -/
def tally (c : Counter) (l : List Event) : Nat := l.countP fun e => counterOfEvent e == some c

/-- The engine's life: phases, channel, reason, latched configuration, and what holds before the run starts
(spec/10_state.md R22, R28, R29, R33, R34, R38). -/
structure Lifecycle (s : State) : Prop where
  /-- the table is admitted (spec/40_crc8.md R103) -/
  admitted : isPermutation s.params.crcTable = true
  /-- ACC holds no value outside CRC_COMPUTE (R22) -/
  accFree : s.acc = none
  /-- the channel is open until the stop and closed from then on (R34, spec/43_pipeline.md R176) -/
  openUntilStop : s.channelOpen = true ↔ s.phase ≠ .stopped
  /-- the reason is written when PHASE becomes STOPPED (R29) -/
  reasonAtStop : s.stopReason = .none ↔ s.phase ≠ .stopped
  /-- a running engine has its configuration (R33) -/
  latchedInRun : s.phase = .running → s.runConfig.isSome = true
  /-- only whole-frame discard is ever latched (spec/42_stream_sync.md R157) -/
  wholeFrames : ∀ c, s.runConfig = some c → c.resync = .wholeFrameDiscard
  /-- the request slot holds nothing but RUN_STEP, and only in a run: NEXT_FRAME and CLOSE, which the engine issues too
  (spec/30_encoding.md R93), run inside another step (the model's choice, log 7) -/
  engineOwn : s.engineReq = [] ∨ (s.engineReq = encode .runStep ∧ s.phase = .running)
  /-- before RUN nothing is read, counted, delivered or latched (R38, spec/70_reset_and_hazards.md R251) -/
  beforeRun : s.phase = .reset ∨ s.phase = .ready →
    s.cursor = 0 ∧ s.frame = none ∧ s.runConfig = none ∧ s.sink = [] ∧
      s.valid = 0 ∧ s.headerMismatches = 0 ∧ s.checksumFailures = 0 ∧ s.timeouts = 0

/-- The counters, the sink and the trace tell one story, and CURSOR fits it (spec/43_pipeline.md R173, R177, R181;
spec/42_stream_sync.md R152, R153): every counted full window took 4 bytes, every timeout at most 3; and every delivered
sample is classified by its code (spec/41_frame_decoder.md R120). -/
structure Accounts (s : State) : Prop where
  validTally : s.valid = tally .valid s.events
  headerTally : s.headerMismatches = tally .headerMismatches s.events
  checksumTally : s.checksumFailures = tally .checksumFailures s.events
  timeoutTally : s.timeouts = tally .timeouts s.events
  sinkIsTrace : s.sink = s.events.filterMap sampleOf
  classified : ∀ x ∈ s.sink, x.classification = classify x.rawCode
  closesOnce : s.events.countP (· == .close) = if s.channelOpen then 0 else 1
  closesLast : s.channelOpen = false → s.events.getLast? = some .close
  cursorAtLeast : 4 * (s.valid + s.headerMismatches + s.checksumFailures) ≤ s.cursor
  cursorAtMost : s.cursor ≤ 4 * (s.valid + s.headerMismatches + s.checksumFailures) + 3 * s.timeouts

/-- A budgeted run never delivers more than its budget, and attempts only below it (spec/43_pipeline.md R172, R175). -/
def WithinBudget (s : State) : Prop :=
  ∀ c n, s.runConfig = some c → c.budget = some n → s.valid ≤ n ∧ (s.engineReq ≠ [] → s.valid < n)

/-- The delivered samples carry a timestamp exactly when the run has timestamps, and the timestamps never go back, the
clock included (spec/43_pipeline.md R174, R178). -/
structure Timestamped (s : State) : Prop where
  whenEnabled : ∀ c, s.runConfig = some c → ∀ x ∈ s.sink, x.capturedAt.isSome = c.timestamps
  neverBack : (s.sink.filterMap Sample.capturedAt).Pairwise (· ≤ ·)
  clockAhead : ∀ t ∈ s.sink.filterMap Sample.capturedAt, t ≤ s.clockNow

end Sys2Proof.Safety
end

