-- ==== Sys2Proof/Certificates/Slice0/Obligations.lean ====
section
/-! DEFINITION. The statements for the provers, from the numbered rules of spec/. A next state is written as the state before
with the changed fields only: everything the record does not name is unchanged (the frame). -/

open Sys2Proof Sys2Proof.Machine Sys2Proof.Safety

/-! ## The CRC-8 engine -/

/-- R101: one table read, nothing else written; its image bytes, its two corner cases and its example. -/
def Obligations.CrcStepIsOneTableRead : Prop :=
  (∀ (s : State) (acc b : Byte), Admitted s →
    exec (.crcStep acc b) s = .next { s with result := some (.crc (tableRead s.params.crcTable (acc ^^^ b))) }) ∧
  (∀ (t : Table) (i : Byte), t.toList[i.toNat]? = some (tableRead t i)) ∧
  (∀ (s : State) (b : Byte), Admitted s →
    exec (.crcStep b b) s = .next { s with result := some (.crc (tableRead s.params.crcTable 0x00)) }) ∧
  (∀ (s : State) (acc b : Byte), exec (.crcStep acc b) s = exec (.crcStep (acc ^^^ b) 0x00) s) ∧
  (∀ (who : Issuer) (acc b : Byte) (rest : List Byte),
    decodeOp who (0x01 :: acc :: b :: rest) = .ok (.crcStep acc b, rest)) ∧
  tableRead Config.t07 0x00 = 0x00 ∧ tableRead Config.t07 (0x00 ^^^ 0x54) = 0xAB

/-- R102: ACC starts at 0 and takes CRC_STEP's value for each of the first `len` bytes; it holds no value after the
return; a longer `len` is refused; the image bytes; the corner cases and the example. -/
def Obligations.CrcComputeFoldsTheFirstBytes : Prop :=
  (∀ (s : State) (data : List Byte) (len : Nat), Admitted s → len ≤ data.length →
    exec (.crcCompute data len) s = .next { s with
      acc := none
      result := some (.crc ((data.take len).foldl (fun a b => tableRead s.params.crcTable (a ^^^ b)) 0x00)) }) ∧
  (∀ (s : State) (data : List Byte) (len : Nat), Admitted s → data.length < len →
    exec (.crcCompute data len) s = .refused .lengthBeyondData) ∧
  (∀ (who : Issuer) (n len : Byte) (data rest : List Byte), data.length = n.toNat → len.toNat ≤ n.toNat →
    decodeOp who (0x02 :: n :: len :: (data ++ rest)) = .ok (.crcCompute data len.toNat, rest)) ∧
  (∀ (s : State) (data : List Byte), Admitted s →
    exec (.crcCompute data 0) s = .next { s with acc := none, result := some (.crc 0x00) }) ∧
  (∀ (data : List Byte), crcOf Config.t07 (0x00 :: data) = crcOf Config.t07 data) ∧
  crcOf Config.t07 [0x54] = 0xAB ∧ crcOf Config.t07 [0x54, 0x64] = 0x63 ∧ crcOf Config.t07 [0x54, 0x64, 0x00] = 0x2E

/-- R108: the checksum depends on the first `len` bytes and the table alone, whatever else the two states hold. -/
def Obligations.CrcDependsOnItsBytesAlone : Prop :=
  ∀ (s1 s2 : State) (d1 d2 : List Byte) (len : Nat), Admitted s1 → s1.params.crcTable = s2.params.crcTable →
    len ≤ d1.length → len ≤ d2.length → d1.take len = d2.take len →
    ∃ v, exec (.crcCompute d1 len) s1 = .next { s1 with acc := none, result := some (.crc v) } ∧
      exec (.crcCompute d2 len) s2 = .next { s2 with acc := none, result := some (.crc v) }

/-- R107: flipping bit `j` of byte `k` changes the checksum, under every admitted table. -/
def Obligations.CrcDetectsEverySingleBitFlip : Prop :=
  ∀ (s : State) (data : List Byte) (k j : Nat) (hk : k < data.length), Admitted s → j < 8 →
    ∃ v w, exec (.crcCompute data data.length) s = .next { s with acc := none, result := some (.crc v) } ∧
      exec (.crcCompute (data.set k (data[k] ^^^ (1#8 <<< j))) data.length) s =
        .next { s with acc := none, result := some (.crc w) } ∧ v ≠ w

/-- R109: a sequence followed by its own checksum has the checksum `CRC_TABLE[0]`, which is 0 under T07. -/
def Obligations.CrcResidueIsTheFirstEntry : Prop :=
  (∀ (s : State) (data : List Byte), Admitted s →
    ∃ c, exec (.crcCompute data data.length) s = .next { s with acc := none, result := some (.crc c) } ∧
      exec (.crcCompute (data ++ [c]) (data.length + 1)) s =
        .next { s with acc := none, result := some (.crc (tableRead s.params.crcTable 0x00)) }) ∧
  tableRead Config.t07 0x00 = 0x00

/-- R105: the listing of R104 is what the generation law gives at every entry; and it is admitted. -/
def Obligations.DefaultTableFollowsItsLaw : Prop :=
  (∀ i : Byte, tableRead Config.t07 i = crcShift 8 i) ∧ isPermutation Config.t07 = true

/-- R106: under T07 the table-driven checksum is the bitwise CRC-8 with polynomial 0x07, initial value 0. -/
def Obligations.DefaultCrcIsTheBitwiseCrc : Prop :=
  ∀ (s : State) (data : List Byte), s.params.crcTable = Config.t07 →
    exec (.crcCompute data data.length) s = .next { s with
      acc := none
      result := some (.crc (data.foldl (fun a b => crcShift 8 (a ^^^ b)) 0x00)) }

/-- R103, R227: admitted means that every 8-bit value occurs exactly once, and every operation is refused under any other
table. That this ground is the one named where another of R227 holds too is the model's choice (log 13). -/
def Obligations.OnlyPermutationTablesAreAdmitted : Prop :=
  (∀ t : Table, isPermutation t = true ↔ ∀ v : Byte, ∃! i : Byte, tableRead t i = v) ∧
  (∀ (i : Instr) (s : State), ¬ Admitted s → exec i s = .refused .tableNotPermutation)

/-- R78: under T07 the mode-select command carries the CRC-8 of its first three bytes. -/
def Obligations.ModeCommandEndsInItsChecksum : Prop :=
  ∀ s : State, s.params.crcTable = Config.t07 →
    exec (.crcCompute [0x00, 0x11, 0x02] 3) s = .next { s with acc := none, result := some (.crc 0x4C) } ∧
    exec (.crcCompute [0x00, 0x11, 0x01] 3) s = .next { s with acc := none, result := some (.crc 0x45) }

/-! ## The frame decoder -/

/-- R74, R120, R121, R122, R123: the header check first, then the checksum check, then `{b2, b1}`; pure; with its image bytes
and its example. -/
def Obligations.DecodeChecksHeaderThenChecksum : Prop :=
  (∀ (s : State) (b0 b1 b2 b3 : Byte), Admitted s → b0 ≠ 0x54 →
    exec (.decode b0 b1 b2 b3) s = .next { s with result := some (.decoded (.err .headerMismatch)) }) ∧
  (∀ (s : State) (b1 b2 b3 : Byte), Admitted s → crcOf s.params.crcTable [0x54, b1, b2] ≠ b3 →
    exec (.decode 0x54 b1 b2 b3) s = .next { s with result := some (.decoded (.err .checksumFailed)) }) ∧
  (∀ (s : State) (b1 b2 b3 : Byte), Admitted s → crcOf s.params.crcTable [0x54, b1, b2] = b3 →
    exec (.decode 0x54 b1 b2 b3) s = .next { s with
      result := some (.decoded (.ok { rawCode := b2 ++ b1, classification := classify (b2 ++ b1), capturedAt := none })) }) ∧
  (∀ (t : Table) (b0 b1 b2 : Byte),
    crcOf t [b0, b1, b2] = tableRead t (tableRead t (tableRead t (0x00 ^^^ b0) ^^^ b1) ^^^ b2)) ∧
  (∀ (who : Issuer) (b0 b1 b2 b3 : Byte) (rest : List Byte),
    decodeOp who (0x03 :: b0 :: b1 :: b2 :: b3 :: rest) = .ok (.decode b0 b1 b2 b3, rest)) ∧
  crcOf Config.t07 [0x54, 0x64, 0x00] = 0x2E ∧ classify 0x0064 = .measurement 100

/-- R75, R124: the code space, the corner cases, the image bytes, the example. -/
def Obligations.ClassifyFollowsTheCodeSpace : Prop :=
  (∀ s : State, Admitted s →
    exec (.classify 0x0000) s = .next { s with result := some (.classified .negativeInfinity) } ∧
    exec (.classify 0x0001) s = .next { s with result := some (.classified .negativeOne) } ∧
    exec (.classify 0xFFFF) s = .next { s with result := some (.classified .positiveInfinity) }) ∧
  (∀ (s : State) (code : Code16), Admitted s → 2 ≤ code.toNat → code.toNat ≤ 65534 →
    exec (.classify code) s = .next { s with result := some (.classified (.measurement code.toNat)) }) ∧
  (∀ (who : Issuer) (lo hi : Byte) (rest : List Byte),
    decodeOp who (0x04 :: lo :: hi :: rest) = .ok (.classify (hi ++ lo), rest))

/-- R127: a frame built with its checksum decodes to its code; any other fourth byte is ChecksumFailed. -/
def Obligations.DecodeRoundTripsEveryCode : Prop :=
  ∀ (s : State) (lo hi : Byte), Admitted s →
    ∃ c, exec (.crcCompute [0x54, lo, hi] 3) s = .next { s with acc := none, result := some (.crc c) } ∧
      exec (.decode 0x54 lo hi c) s = .next { s with
        result := some (.decoded (.ok { rawCode := hi ++ lo, classification := classify (hi ++ lo), capturedAt := none })) } ∧
      ((hi ++ lo : Code16) ≠ 0x0000 → (hi ++ lo : Code16) ≠ 0x0001 → (hi ++ lo : Code16) ≠ 0xFFFF →
        classify (hi ++ lo) = .measurement (hi.toNat * 256 + lo.toNat)) ∧
      ∀ x : Byte, x ≠ c →
        exec (.decode 0x54 lo hi x) s = .next { s with result := some (.decoded (.err .checksumFailed)) }

/-- R128: one flipped bit in a well-headed, checksum-valid frame is always rejected. -/
def Obligations.DecodeRejectsEverySingleBitError : Prop :=
  ∀ (s : State) (b1 b2 b3 : Byte) (j : Nat), Admitted s → crcOf s.params.crcTable [0x54, b1, b2] = b3 → j < 8 →
    exec (.decode (0x54 ^^^ (1#8 <<< j)) b1 b2 b3) s =
      .next { s with result := some (.decoded (.err .headerMismatch)) } ∧
    exec (.decode 0x54 (b1 ^^^ (1#8 <<< j)) b2 b3) s =
      .next { s with result := some (.decoded (.err .checksumFailed)) } ∧
    exec (.decode 0x54 b1 (b2 ^^^ (1#8 <<< j)) b3) s =
      .next { s with result := some (.decoded (.err .checksumFailed)) } ∧
    exec (.decode 0x54 b1 b2 (b3 ^^^ (1#8 <<< j))) s =
      .next { s with result := some (.decoded (.err .checksumFailed)) }

/-! ## The channel and the synchronizer -/

/-- R56, R63: what a read takes are the stream's next bytes: the listed ones while they last, as many as asked for from
a stream without an end, and two reads in a row take consecutive parts. That a listed end of the source gives short
reads is the model's reading of R180 (log 3). -/
def Obligations.ReadsTakeConsecutiveParts : Prop :=
  (∀ (s : State) (k : Nat), k ≤ s.input.length → streamTake k s = s.input.take k) ∧
  (∀ (s : State) (k : Nat), s.sourceEnds = false → (streamTake k s).length = k) ∧
  (∀ (s : State) (k : Nat), s.sourceEnds = true → streamTake k s = s.input.take k) ∧
  (∀ (s : State) (j k : Nat),
    streamTake (j + k) s = streamTake j s ++ streamTake (j + k - (streamTake j s).length) (consume (streamTake j s).length s))

/-- R151 to R154, R57: NEXT_FRAME completes on every answer of the channel: a full read fills FRAME, a short one drops its
bytes, a failed one takes nothing; CURSOR counts the bytes taken. -/
def Obligations.NextFrameFollowsTheRead : Prop :=
  (∀ (s : State) (k : Nat) (f : ByteFrame), Admitted s → s.phase = .running → s.channelOpen = true →
    readDraw s = .bytes k → streamTake (min k 4) s = [f.b0, f.b1, f.b2, f.b3] →
    exec .nextFrame s = .next { afterReadDraw s with
      cursor := s.cursor + 4, input := s.input.drop 4, frame := some f, result := some (.frame (.ok f)) }) ∧
  (∀ (s : State) (k n : Nat), Admitted s → s.phase = .running → s.channelOpen = true →
    readDraw s = .bytes k → (streamTake (min k 4) s).length = n → n < 4 →
    exec .nextFrame s = .next { afterReadDraw s with
      cursor := s.cursor + n, input := s.input.drop n, frame := none, result := some (.frame (.err .timeout)) }) ∧
  (∀ s : State, Admitted s → s.phase = .running → s.channelOpen = true → readDraw s = .fail →
    exec .nextFrame s = .next { afterReadDraw s with
      frame := none, result := some (.frame (.err .transportFailure)) }) ∧
  (∀ rest : List Byte, decodeOp .engine (0x05 :: rest) = .ok (.nextFrame, rest) ∧
    decodeOp .caller (0x05 :: rest) = .error (.engineInternal 0x05))

/-- R152, R153, R154: whatever DECODE finds, a full window takes exactly 4 bytes of the stream; a Timeout fewer than 4; a
TransportFailure none. -/
def Obligations.EveryFullWindowTakesFourBytes : Prop :=
  ∀ s t : State, exec .runStep s = .next t →
    (t.result = some (.attempt .transportFailure) ∧ t.cursor = s.cursor ∧ t.input = s.input) ∨
    (t.result = some (.attempt .timeout) ∧ ∃ n < 4, t.cursor = s.cursor + n ∧ t.input = s.input.drop n) ∨
    (t.result ≠ some (.attempt .transportFailure) ∧ t.result ≠ some (.attempt .timeout) ∧
      t.cursor = s.cursor + 4 ∧ t.input = s.input.drop 4)

/-- R155, R156: with a true frame start at `start`, the misalignment of the window stays what it was in every step but one
that times out, which shifts it by the bytes it dropped. -/
def Obligations.MisalignmentPersists : Prop :=
  ∀ (s t : State) (start m : Nat), step s = .next t → start ≤ s.cursor → (s.cursor - start) % 4 = m →
    (s.engineReq = [] ∨ s.engineReq = encode .runStep) →
    (t.timeouts ≤ s.timeouts → (t.cursor - start) % 4 = m) ∧
    (t.timeouts = s.timeouts + 1 → ∃ n < 4, t.cursor = s.cursor + n ∧ (t.cursor - start) % 4 = (m + n) % 4)

/-! ## The pipeline -/

/-- R170's start and R251: RUN latches its configuration, clears the four counters and enters RUNNING; CURSOR keeps its
value, which is 0 in every engine that has not run. That RUN's own step ends here, in RUNNING with the returned value emptied,
and that RUN returns at its stop, is the model's choice (log 1). Asked for HeaderHunt it is refused (R157). -/
def Obligations.RunLatchesAndClears : Prop :=
  ∀ (s : State) (budget : Option Nat) (ts : Bool), Admitted s → s.phase = .ready → s.channelOpen = true →
    exec (.run budget ts .wholeFrameDiscard) s = .next { s with
      runConfig := some { budget := budget, timestamps := ts, resync := .wholeFrameDiscard }
      valid := 0
      headerMismatches := 0
      checksumFailures := 0
      timeouts := 0
      phase := .running
      result := none } ∧
    exec (.run budget ts .headerHunt) s = .refused .headerHunt ∧
    (Lifecycle s → s.cursor = 0)

/-- R171, R174, R177: a window that passes both checks is delivered, counted and recorded, with the clock's value drawn
after the read when timestamps are on. -/
def Obligations.RunStepDeliversValidWindow : Prop :=
  ∀ (s : State) (c : RunConfig) (k : Nat) (lo hi crc : Byte), Attempting s c → readDraw s = .bytes k →
    streamTake (min k 4) s = [0x54, lo, hi, crc] → crcOf s.params.crcTable [0x54, lo, hi] = crc →
    counterFits s.params.counterWidth s.valid = true →
    let u := if c.timestamps then tickClock (afterReadDraw s) else afterReadDraw s
    let x : Sample :=
      { rawCode := hi ++ lo
        classification := classify (hi ++ lo)
        capturedAt := if c.timestamps then some (s.clockNow + clockDraw (afterReadDraw s)) else none }
    exec .runStep s = .next { u with
      cursor := s.cursor + 4
      input := s.input.drop 4
      frame := some ⟨0x54, lo, hi, crc⟩
      sink := s.sink ++ [x]
      valid := s.valid + 1
      events := s.events ++ [.attempt (.valid x)]
      result := some (.attempt (.valid x)) }

/-- R171: a window that fails the header check counts as HeaderMismatch only, whatever its checksum; one that fails the
checksum check as ChecksumFailed; nothing reaches the sink. -/
def Obligations.RunStepCountsRejectedWindow : Prop :=
  ∀ (s : State) (c : RunConfig) (k : Nat) (f : ByteFrame), Attempting s c → readDraw s = .bytes k →
    streamTake (min k 4) s = [f.b0, f.b1, f.b2, f.b3] →
    let u := if c.timestamps then tickClock (afterReadDraw s) else afterReadDraw s
    (f.b0 ≠ 0x54 → counterFits s.params.counterWidth s.headerMismatches = true →
      exec .runStep s = .next { u with
        cursor := s.cursor + 4
        input := s.input.drop 4
        frame := some f
        headerMismatches := s.headerMismatches + 1
        events := s.events ++ [.attempt .headerMismatch]
        result := some (.attempt .headerMismatch) }) ∧
    (f.b0 = 0x54 → crcOf s.params.crcTable [0x54, f.b1, f.b2] ≠ f.b3 →
      counterFits s.params.counterWidth s.checksumFailures = true →
      exec .runStep s = .next { u with
        cursor := s.cursor + 4
        input := s.input.drop 4
        frame := some f
        checksumFailures := s.checksumFailures + 1
        events := s.events ++ [.attempt .checksumFailed]
        result := some (.attempt .checksumFailed) })

/-- R171, R223, R224: a short read counts as one Timeout and draws no timestamp; a failed read counts nowhere. -/
def Obligations.RunStepCountsReadErrors : Prop :=
  (∀ (s : State) (c : RunConfig) (k n : Nat), Attempting s c → readDraw s = .bytes k →
    (streamTake (min k 4) s).length = n → n < 4 → counterFits s.params.counterWidth s.timeouts = true →
    exec .runStep s = .next { afterReadDraw s with
      cursor := s.cursor + n
      input := s.input.drop n
      frame := none
      timeouts := s.timeouts + 1
      events := s.events ++ [.attempt .timeout]
      result := some (.attempt .timeout) }) ∧
  (∀ (s : State) (c : RunConfig), Attempting s c → readDraw s = .fail →
    exec .runStep s = .next { afterReadDraw s with
      frame := none
      events := s.events ++ [.attempt .transportFailure]
      result := some (.attempt .transportFailure) })

/-- R31, R228: with a fixed width, the attempt whose increment would pass it faults and never wraps; without one, no
attempt faults. -/
def Obligations.CounterOverflowFaults : Prop :=
  (∀ (s : State) (c : RunConfig) (k w : Nat) (f : ByteFrame), Attempting s c → readDraw s = .bytes k →
    streamTake (min k 4) s = [f.b0, f.b1, f.b2, f.b3] → s.params.counterWidth = some w →
    (f.b0 ≠ 0x54 → s.headerMismatches + 1 > 2 ^ w - 1 →
      exec .runStep s = .fault (.counterOverflow .headerMismatches)) ∧
    (f.b0 = 0x54 → crcOf s.params.crcTable [0x54, f.b1, f.b2] ≠ f.b3 → s.checksumFailures + 1 > 2 ^ w - 1 →
      exec .runStep s = .fault (.counterOverflow .checksumFailures)) ∧
    (f.b0 = 0x54 → crcOf s.params.crcTable [0x54, f.b1, f.b2] = f.b3 → s.valid + 1 > 2 ^ w - 1 →
      exec .runStep s = .fault (.counterOverflow .valid))) ∧
  (∀ (s : State) (c : RunConfig) (k w : Nat), Attempting s c → readDraw s = .bytes k →
    (streamTake (min k 4) s).length < 4 → s.params.counterWidth = some w → s.timeouts + 1 > 2 ^ w - 1 →
    exec .runStep s = .fault (.counterOverflow .timeouts)) ∧
  (∀ (s : State) (c : RunConfig), Attempting s c → s.params.counterWidth = none →
    ∃ t, exec .runStep s = .next t)

/-- R173, R181, R182: an attempt of the loop has one outcome, recorded once; it adds 1 to exactly the counter the table
gives, emits only a valid sample, and the loop goes on after every outcome but a TransportFailure. -/
def Obligations.EachAttemptIsAccountedOnce : Prop :=
  ∀ s t : State, s.engineReq = encode .runStep → step s = .next t →
    (∃ x, t.events = s.events ++ [.attempt (.valid x)] ∧ t.sink = s.sink ++ [x] ∧ t.phase = .running ∧
      t.valid = s.valid + 1 ∧ t.headerMismatches = s.headerMismatches ∧ t.checksumFailures = s.checksumFailures ∧
      t.timeouts = s.timeouts) ∨
    (t.events = s.events ++ [.attempt .headerMismatch] ∧ t.sink = s.sink ∧ t.phase = .running ∧
      t.valid = s.valid ∧ t.headerMismatches = s.headerMismatches + 1 ∧ t.checksumFailures = s.checksumFailures ∧
      t.timeouts = s.timeouts) ∨
    (t.events = s.events ++ [.attempt .checksumFailed] ∧ t.sink = s.sink ∧ t.phase = .running ∧
      t.valid = s.valid ∧ t.headerMismatches = s.headerMismatches ∧ t.checksumFailures = s.checksumFailures + 1 ∧
      t.timeouts = s.timeouts) ∨
    (t.events = s.events ++ [.attempt .timeout] ∧ t.sink = s.sink ∧ t.phase = .running ∧
      t.valid = s.valid ∧ t.headerMismatches = s.headerMismatches ∧ t.checksumFailures = s.checksumFailures ∧
      t.timeouts = s.timeouts + 1) ∨
    (t.events = s.events ++ [.attempt .transportFailure, .close] ∧ t.sink = s.sink ∧ t.phase = .stopped ∧
      t.stopReason = .transportFailure ∧
      t.valid = s.valid ∧ t.headerMismatches = s.headerMismatches ∧ t.checksumFailures = s.checksumFailures ∧
      t.timeouts = s.timeouts)

/-- R172, R175, R230: between two attempts the budget is tested first, then CANCEL as the caller holds it; a stop closes the
channel and returns the summary (R179); otherwise the engine issues RUN_STEP (its slot is the model's, log 7). After the check
comes the caller's turn (log 2). -/
def Obligations.BudgetIsTestedBeforeCancel : Prop :=
  ∀ (s : State) (c : RunConfig), s.engineReq = [] → s.phase = .running → s.channelOpen = true → s.runConfig = some c →
    (∀ n, c.budget = some n → n ≤ s.valid →
      step s = .next (callerTurn { s with
        stopReason := .budgetReached
        channelOpen := false
        events := s.events ++ [.close]
        phase := .stopped
        result := some (.run ⟨s.valid, s.headerMismatches, s.checksumFailures, s.timeouts⟩ .budgetReached) })) ∧
    ((∀ n, c.budget = some n → s.valid < n) →
      (s.cancel = true →
        step s = .next (callerTurn { s with
          stopReason := .cancelled
          channelOpen := false
          events := s.events ++ [.close]
          phase := .stopped
          result := some (.run ⟨s.valid, s.headerMismatches, s.checksumFailures, s.timeouts⟩ .cancelled) })) ∧
      (s.cancel = false → step s = .next (callerTurn { s with engineReq := [0x06] })))

/-- R224, R229: a failed read within RUN ends it with TRANSPORT_FAILURE, the channel closed and the summary returned; then
comes the caller's turn (log 2). -/
def Obligations.TransportFailureEndsTheRun : Prop :=
  ∀ (s : State) (c : RunConfig), Attempting s c → s.engineReq = encode .runStep → readDraw s = .fail →
    step s = .next (callerTurn { afterReadDraw s with
      engineReq := []
      frame := none
      stopReason := .transportFailure
      channelOpen := false
      events := s.events ++ [.attempt .transportFailure, .close]
      phase := .stopped
      result := some (.run ⟨s.valid, s.headerMismatches, s.checksumFailures, s.timeouts⟩ .transportFailure) })

/-- R176, R59: CLOSE closes an open channel and records it, nothing else; only the engine issues it (R93). That it is refused
on a closed channel is the model's reading of R176's precondition (log 13). -/
def Obligations.CloseReleasesTheChannel : Prop :=
  (∀ s : State, Admitted s → s.channelOpen = true →
    exec .close s = .next { s with channelOpen := false, events := s.events ++ [.close], result := some .closed }) ∧
  (∀ s : State, Admitted s → s.channelOpen = false → exec .close s = .refused .channelClosed) ∧
  (∀ rest : List Byte, decodeOp .engine (0x09 :: rest) = .ok (.close, rest) ∧
    decodeOp .caller (0x09 :: rest) = .error (.engineInternal 0x09))

/-! ## The mode initializer -/

/-- R200: with the write answered Ok, INIT_MODE sends the mode's command, records it and makes the engine READY; CURSOR and
all else stay. -/
def Obligations.InitModeSendsTheCommand : Prop :=
  (∀ (s : State) (mode : Mode), Admitted s → s.phase = .reset → s.channelOpen = true → writeDraw s = .ok →
    let f := match mode with | .binary => s.params.binaryModeCommand | .text => s.params.textModeCommand
    exec (.initMode mode) s = .next { afterWriteDraw s with
      output := s.output ++ [f.b0, f.b1, f.b2, f.b3]
      events := s.events ++ [.write [f.b0, f.b1, f.b2, f.b3] .ok]
      phase := .ready
      result := some (.init (.ok ())) }) ∧
  Config.params.binaryModeCommand = ⟨0x00, 0x11, 0x02, 0x4C⟩ ∧ Config.params.textModeCommand = ⟨0x00, 0x11, 0x02, 0x4C⟩

/-- R226, R200: with the write answered Fail, so that fewer than all bytes were sent (R58), INIT_MODE records INIT_FAILED,
closes the channel and ends in STOPPED with WriteFailed; after any number of further steps the engine is still STOPPED and
RUN is refused. That the draw names the count sent is the model's (log 4), and that RUN asked for HeaderHunt is refused for that
ground, where its phase is one too, is the order of tests the model chose (log 13). -/
def Obligations.FailedInitEndsTheEngine : Prop :=
  ∀ (s : State) (mode : Mode) (sent : Nat), Admitted s → s.phase = .reset → s.channelOpen = true →
    writeDraw s = .fail sent →
    let f := match mode with | .binary => s.params.binaryModeCommand | .text => s.params.textModeCommand
    ∃ n < 4, ∃ t, exec (.initMode mode) s = .next t ∧
      t = { afterWriteDraw s with
        output := s.output ++ [f.b0, f.b1, f.b2, f.b3].take n
        events := s.events ++ [.write [f.b0, f.b1, f.b2, f.b3] .fail, .close]
        stopReason := .initFailed
        channelOpen := false
        phase := .stopped
        result := some (.init (.err .writeFailed)) } ∧
      ∀ k u, Host.Core.run Sys2Proof.core k t = .next u → u.phase = .stopped ∧
        ∀ budget ts, exec (.run budget ts .wholeFrameDiscard) u = .refused (.wrongPhase .ready) ∧
          exec (.run budget ts .headerHunt) u = .refused .headerHunt

/-- R200, R203: where the two commands are the same bytes, as the spec has them, the two modes have identical effects. -/
def Obligations.BothModesActAlike : Prop :=
  ∀ s : State, s.params.textModeCommand = s.params.binaryModeCommand →
    exec (.initMode .text) s = exec (.initMode .binary) s

/-! ## Requests: decoding, order, refusals -/

/-- R94: every well-formed operation an image can hold is read back from its bytes, whatever follows them. -/
def Obligations.DecodeUndoesEncode : Prop :=
  ∀ (i : Instr) (rest : List Byte), i.wellFormed = true → i.inImage = true →
    decodeOp i.issuer (encode i ++ rest) = .ok (i, rest)

/-- R93, R94: whatever the decoder accepts is a well-formed operation, its bytes are exactly that operation's encoding, and
from the caller it is never one that only the engine issues. -/
def Obligations.DecodeAcceptsOnlyEncodings : Prop :=
  ∀ (who : Issuer) (bytes rest : List Byte) (i : Instr), decodeOp who bytes = .ok (i, rest) →
    bytes = encode i ++ rest ∧ i.wellFormed = true ∧ i.inImage = true ∧ (who = .caller → i.issuer = .caller)

/-- R90, R93: unused codes and the engine's own codes from a caller are refused by name, as a step too, and so are the engine's
own operations requested by value (their place is the model's, log 26). That a step names this ground also where another of
R227 holds (the phase, the table) is the model's choice (log 24). -/
def Obligations.UnusedAndInternalCodesAreRefused : Prop :=
  (∀ (who : Issuer) (code : Byte) (rest : List Byte), code = 0x00 ∨ 0x0A ≤ code.toNat →
    decodeOp who (code :: rest) = .error (.unusedCode code)) ∧
  (∀ (code : Byte) (rest : List Byte), code = 0x05 ∨ code = 0x06 ∨ code = 0x09 →
    decodeOp .caller (code :: rest) = .error (.engineInternal code)) ∧
  (∀ (s : State) (r : Reject), s.engineReq = [] → s.phase ≠ .running → s.program ≠ [] →
    decodeOp .caller s.program = .error r → step s = .refused (.undecodable r)) ∧
  (∀ (s : State) (i : Instr) (code : Byte) (rest : List Instr), s.engineReq = [] → s.phase ≠ .running → s.program = [] →
    s.requests = i :: rest →
    (i = .nextFrame ∧ code = 0x05) ∨ (i = .runStep ∧ code = 0x06) ∨ (i = .close ∧ code = 0x09) →
    step s = .refused (.undecodable (.engineInternal code)))

/-- Sanity: words written out from R94 decode to the operations they stand for. -/
def Obligations.WrittenWordsDecode : Prop :=
  decodeOp .caller [0x01, 0x00, 0x54] = .ok (.crcStep 0x00 0x54, []) ∧
  decodeOp .caller [0x02, 0x03, 0x03, 0x54, 0x64, 0x00] = .ok (.crcCompute [0x54, 0x64, 0x00] 3, []) ∧
  decodeOp .caller [0x03, 0x54, 0x64, 0x00, 0x2E] = .ok (.decode 0x54 0x64 0x00 0x2E, []) ∧
  decodeOp .caller [0x04, 0x64, 0x00] = .ok (.classify 0x0064, []) ∧
  decodeOp .caller [0x07, 0x03, 0x02, 0x00, 0x00, 0x00] = .ok (.run (some 2) true .wholeFrameDiscard, []) ∧
  decodeOp .caller [0x07, 0x00, 0x05, 0x00, 0x00, 0x00] = .error (.badOperand 0x07) ∧
  decodeOp .caller [0x08, 0x01] = .ok (.initMode .text, []) ∧
  decodeOp .caller [0x08, 0x02] = .error (.badOperand 0x08) ∧
  decodeOp .engine [0x05] = .ok (.nextFrame, []) ∧
  decodeOp .caller [0x03, 0x54, 0x64] = .error .truncated

/-- A step runs the operation the caller's image holds first, with its bytes taken from the image, and then the caller's turn
comes (log 2), nothing else; with no image left it so runs the first operation requested by value (R92), with operands of any
size; with no request the engine waits (log 6). That the image comes first is the model's choice (log 26). -/
def Obligations.StepRunsTheCallersRequest : Prop :=
  (∀ (s : State) (i : Instr) (rest : List Byte), s.engineReq = [] → s.phase ≠ .running →
    decodeOp .caller s.program = .ok (i, rest) → step s = thenCaller (exec i { s with program := rest })) ∧
  (∀ (s : State) (i : Instr) (rest : List Instr), s.engineReq = [] → s.phase ≠ .running → s.program = [] →
    s.requests = i :: rest → i.issuer = .caller → step s = thenCaller (exec i { s with requests := rest })) ∧
  (∀ s : State, s.engineReq = [] → s.phase ≠ .running → s.program = [] → s.requests = [] → step s = .next (callerTurn s))

/-- A step runs the operation the engine has issued, its slot emptied; after RUN_STEP, and after nothing else, a
TransportFailure stops the run (R170; the slot is the model's, log 7); then the caller's turn comes (log 2). -/
def Obligations.StepRunsTheEnginesRequest : Prop :=
  ∀ (s : State) (i : Instr) (rest : List Byte), s.engineReq ≠ [] → decodeOp .engine s.engineReq = .ok (i, rest) →
    (i ≠ .runStep → step s = thenCaller (exec i { s with engineReq := [] })) ∧
    (∀ r, exec .runStep { s with engineReq := [] } = .refused r → i = .runStep → step s = .refused r) ∧
    (∀ r, exec .runStep { s with engineReq := [] } = .fault r → i = .runStep → step s = .fault r) ∧
    (∀ t, exec .runStep { s with engineReq := [] } = .next t → i = .runStep →
      (t.result ≠ some (.attempt .transportFailure) → step s = .next (callerTurn t)) ∧
      (t.result = some (.attempt .transportFailure) →
        step s = .next (callerTurn { t with
          stopReason := .transportFailure
          channelOpen := false
          events := t.events ++ [.close]
          phase := .stopped
          result := some (.run ⟨t.valid, t.headerMismatches, t.checksumFailures, t.timeouts⟩ .transportFailure) })))

/-- R227, R254, R201: INIT_MODE and RUN out of order are refused, in every state; NEXT_FRAME and RUN_STEP by the
preconditions of R151 and R171. That RUN asked for HeaderHunt (R157) names that ground in every phase is the order of tests the
model chose (log 13). -/
def Obligations.OutOfOrderRequestsAreRefused : Prop :=
  (∀ (s : State) (mode : Mode), Admitted s → s.phase ≠ .reset →
    exec (.initMode mode) s = .refused (.wrongPhase .reset)) ∧
  (∀ (s : State) (budget : Option Nat) (ts : Bool), Admitted s → s.phase ≠ .ready →
    exec (.run budget ts .wholeFrameDiscard) s = .refused (.wrongPhase .ready)) ∧
  (∀ s : State, Admitted s → s.phase ≠ .running → exec .nextFrame s = .refused (.wrongPhase .running)) ∧
  (∀ s : State, Admitted s → s.phase ≠ .running → exec .runStep s = .refused (.wrongPhase .running)) ∧
  (∀ (s : State) (budget : Option Nat) (ts : Bool), Admitted s →
    exec (.run budget ts .headerHunt) s = .refused .headerHunt)

/-! ## The whole machine -/

/-- R38, R250, R25: the state after reset. The fields marked MODEL in State and the empty sink and output are the model's
choice (log 3 to log 8). -/
def Obligations.ResetStateIsAsListed : Prop :=
  State.reset.acc = none ∧ State.reset.frame = none ∧ State.reset.params.crcTable = Config.t07 ∧ Config.header = 0x54 ∧
  State.reset.syncState = .aligned ∧ State.reset.cursor = 0 ∧ State.reset.phase = .reset ∧
  State.reset.stopReason = .none ∧ State.reset.valid = 0 ∧ State.reset.headerMismatches = 0 ∧
  State.reset.checksumFailures = 0 ∧ State.reset.timeouts = 0 ∧ State.reset.runConfig = none ∧
  State.reset.channelOpen = true ∧ State.reset.events = []

/-- Every invariant of Safety holds at reset. -/
def Obligations.ResetMeetsTheInvariants : Prop :=
  Lifecycle State.reset ∧ Accounts State.reset ∧ WithinBudget State.reset ∧ Timestamped State.reset

/-- The engine's life (R22, R28, R29, R33, R34, R38): every step keeps it. That only RUN_STEP ever stands in the request slot is
the model's choice (log 7): NEXT_FRAME and CLOSE, which the engine issues too (R93), run inside another step. -/
def Obligations.StepKeepsTheLifecycle : Prop :=
  ∀ s t : State, Lifecycle s → step s = .next t → Lifecycle t

/-- Counters, sink, trace and CURSOR tell one story (R35, R173, R176, R177, R181): every step keeps it. -/
def Obligations.StepKeepsTheAccounts : Prop :=
  ∀ s t : State, Lifecycle s → Accounts s → step s = .next t → Accounts t

/-- A budgeted run never delivers more than its budget (R172, R175): every step keeps it. -/
def Obligations.StepStaysWithinBudget : Prop :=
  ∀ s t : State, Lifecycle s → WithinBudget s → step s = .next t → WithinBudget t

/-- Timestamps are attached exactly as configured and never go back (R174, R178): every step keeps it. -/
def Obligations.StepKeepsTimestampsInOrder : Prop :=
  ∀ s t : State, Lifecycle s → Timestamped s → step s = .next t → Timestamped t

/-- R126: DECODE gives a sample only for a frame that passes both checks, and a step hands the sink at most one, made from the
four bytes next in the stream, which pass both. -/
def Obligations.StepDeliversOnlyCheckedFrames : Prop :=
  (∀ (s t : State) (b0 b1 b2 b3 : Byte) (x : Sample), exec (.decode b0 b1 b2 b3) s = .next t →
    t.result = some (.decoded (.ok x)) → b0 = 0x54 ∧ crcOf s.params.crcTable [b0, b1, b2] = b3 ∧ x.rawCode = b2 ++ b1) ∧
  (∀ s t : State, step s = .next t → t.sink = s.sink ∨
    ∃ (f : ByteFrame) (x : Sample), streamTake 4 s = [f.b0, f.b1, f.b2, f.b3] ∧ t.frame = some f ∧ f.b0 = 0x54 ∧
      crcOf s.params.crcTable [f.b0, f.b1, f.b2] = f.b3 ∧ t.sink = s.sink ++ [x] ∧ x.rawCode = f.b2 ++ f.b1 ∧
      x.classification = classify (f.b2 ++ f.b1))

/-- R28: the only changes of PHASE are the five the rule lists, each with its cause; none leaves STOPPED; at reset it is
RESET. -/
def Obligations.PhaseMovesOnlyAsListed : Prop :=
  State.reset.phase = .reset ∧
  ∀ s t : State, step s = .next t →
    t.phase = s.phase ∨
    (s.phase = .reset ∧ t.phase = .ready ∧ t.result = some (.init (.ok ()))) ∨
    (s.phase = .reset ∧ t.phase = .stopped ∧ t.result = some (.init (.err .writeFailed)) ∧ t.stopReason = .initFailed) ∨
    (s.phase = .ready ∧ t.phase = .running ∧ t.runConfig.isSome = true ∧ t.valid = 0) ∨
    (s.phase = .running ∧ t.phase = .stopped ∧ t.channelOpen = false ∧
      t.result = some (.run ⟨t.valid, t.headerMismatches, t.checksumFailures, t.timeouts⟩ t.stopReason))

/-- R180, R28: a stopped engine never runs again: only its answers to pure requests change, and what the caller changes
(log 2, log 6, log 8, log 26). -/
def Obligations.StoppedEngineIsFrozen : Prop :=
  ∀ s t : State, Lifecycle s → s.phase = .stopped → step s = .next t →
    t = { s with
      program := t.program, requests := t.requests, result := t.result, cancel := t.cancel,
      cancelInputs := s.cancelInputs.tail, drawNo := t.drawNo }

/-- R27, R31, R35: CURSOR and the counters never decrease, and the trace, the sink and the sent bytes are only appended to. -/
def Obligations.ProgressIsMonotone : Prop :=
  ∀ s t : State, Lifecycle s → step s = .next t →
    s.cursor ≤ t.cursor ∧ s.valid ≤ t.valid ∧ s.headerMismatches ≤ t.headerMismatches ∧
    s.checksumFailures ≤ t.checksumFailures ∧ s.timeouts ≤ t.timeouts ∧
    s.events <+: t.events ∧ s.sink <+: t.sink ∧ s.output <+: t.output

/-- R24, R26, R51, R257: no operation writes the table or the other parameters, and SYNC_STATE stays Aligned. -/
def Obligations.TableIsNeverWritten : Prop :=
  ∀ s t : State, step s = .next t → t.params = s.params ∧ t.syncState = .aligned

/-- R34, R59: once the channel is closed nothing reads or writes it, and it stays closed. -/
def Obligations.ClosedChannelIsNeverUsed : Prop :=
  ∀ s t : State, s.channelOpen = false → step s = .next t →
    t.channelOpen = false ∧ t.cursor = s.cursor ∧ t.input = s.input ∧ t.output = s.output ∧
    t.readDraws = s.readDraws ∧ t.writeDraws = s.writeDraws

/-- R27, R58, R61: CURSOR moves only in a run, and bytes are sent only by a step that ran INIT_MODE, in RESET: at most 4. -/
def Obligations.OnlyARunReadsAndOnlyInitWrites : Prop :=
  ∀ s t : State, step s = .next t →
    (t.cursor ≠ s.cursor → s.phase = .running ∧ t.cursor ≤ s.cursor + 4) ∧
    (t.output ≠ s.output → s.phase = .reset ∧ (∃ r, t.result = some (.init r)) ∧
      (∃ mode, (∃ rest, decodeOp .caller s.program = .ok (.initMode mode, rest)) ∨
        (s.program = [] ∧ s.requests.head? = some (.initMode mode)) ∨
        ∃ rest, decodeOp .engine s.engineReq = .ok (.initMode mode, rest)) ∧
      s.cursor = t.cursor ∧ ∃ sent, sent.length ≤ 4 ∧ t.output = s.output ++ sent)

/-- R228: in an engine with unbounded counters no step ever faults. -/
def Obligations.EngineNeverFaults : Prop :=
  ∀ (s : State) (r : Fault), Lifecycle s → s.params.counterWidth = none → step s ≠ .fault r

/-- R182, R230, R238: a running engine with unbounded counters always goes on to a next state, whatever the channel, the clock
and the caller do. -/
def Obligations.RunningEngineAlwaysGoesOn : Prop :=
  ∀ s : State, Lifecycle s → s.params.counterWidth = none → s.phase = .running → ∃ t, step s = .next t

/-- R172, R231: CANCEL is not seen inside an operation: its level changes nothing an operation does. Of RUN this speaks of its
start alone, which is all that exec of RUN is (the model's choice, log 1): RUN's loop stops on CANCEL in its between-frame
checks. In every step that is no such check the level before the step changes nothing at all: the caller's turn at the end of
the step sets CANCEL anew (the model's choice, log 2). -/
def Obligations.CancelIsUnseenInsideOperations : Prop :=
  (∀ (i : Instr) (s : State) (level : Bool) (levels : List Bool),
    exec i { s with cancel := level, cancelInputs := levels } =
      andThen (exec i s) fun t => .next { t with cancel := level, cancelInputs := levels }) ∧
  (∀ (s : State) (level : Bool), s.engineReq ≠ [] ∨ s.phase ≠ .running → step { s with cancel := level } = step s)

/-- R35: the engine never reads EVENTS: another trace before a step changes nothing but the trace after it. -/
def Obligations.TraceIsNeverRead : Prop :=
  ∀ (s t : State) (other : List Event), step s = .next t →
    ∃ l, t.events = s.events ++ l ∧ step { s with events := other } = .next { t with events := other ++ l }

/-- R180: on a silent channel, with no budget and CANCEL 0 at each check, the run goes on for as long as one likes: every
attempt a Timeout, CURSOR unmoved. A statement about the answers the channel has ready (log 3). Every second step is a check,
and the number of steps is the model's (log 1); the levels of CANCEL at the other steps are any (log 2). -/
def Obligations.SilentChannelRunsOn : Prop :=
  ∀ (k : Nat) (s : State) (c : RunConfig) (draws : List ReadDraw), Attempting s c →
    c.budget = none → s.params.counterWidth = none → s.engineReq = [] →
    s.readDraws = List.replicate k (.bytes 0) ++ draws →
    (∀ j < k, (s.cancel :: s.cancelInputs)[2 * j]? = some false) →
    ∃ t, Host.Core.run Sys2Proof.core (2 * k) s = .next t ∧ t.phase = .running ∧ t.timeouts = s.timeouts + k ∧
      t.cursor = s.cursor ∧ t.events = s.events ++ List.replicate k (.attempt .timeout)

/-- R152, R170, R171, R173: over any sequence of full windows, valid or not, an unbudgeted run reads exactly those windows in
order and records, counts and delivers exactly what each of them is. A window takes two steps, its check and its attempt (the
model's choice, log 1); the levels of CANCEL at the steps that are no check are any (log 2). -/
def Obligations.RunAccountsForEveryWindow : Prop :=
  ∀ (fs : List ByteFrame) (s : State) (c : RunConfig) (rest : List Byte) (draws : List ReadDraw),
    Attempting s c → c.budget = none → c.timestamps = false → s.params.counterWidth = none → s.engineReq = [] →
    s.input = (fs.flatMap fun f => [f.b0, f.b1, f.b2, f.b3]) ++ rest →
    s.readDraws = List.replicate fs.length (.bytes 4) ++ draws →
    (∀ j < fs.length, (s.cancel :: s.cancelInputs)[2 * j]? = some false) →
    ∃ t, Host.Core.run Sys2Proof.core (2 * fs.length) s = .next t ∧ t.phase = .running ∧ t.input = rest ∧
      t.cursor = s.cursor + 4 * fs.length ∧
      t.events = s.events ++ fs.map (fun f => .attempt (outcomeOf s.params.crcTable f)) ∧
      t.sink = s.sink ++ fs.filterMap (fun f => sampleOf (.attempt (outcomeOf s.params.crcTable f))) ∧
      t.valid = s.valid + tally .valid (fs.map fun f => .attempt (outcomeOf s.params.crcTable f)) ∧
      t.headerMismatches =
        s.headerMismatches + tally .headerMismatches (fs.map fun f => .attempt (outcomeOf s.params.crcTable f)) ∧
      t.checksumFailures =
        s.checksumFailures + tally .checksumFailures (fs.map fun f => .attempt (outcomeOf s.params.crcTable f)) ∧
      t.timeouts = s.timeouts

/-- R170, R175, R179, R261: a caller's RUN with a budget of n, of any size when it is passed by value (R92; log 26), on a
channel that gives n valid frames and with CANCEL 0 at each check, ends in STOPPED with BUDGET_REACHED, the summary
{n, 0, 0, 0}, the n samples in order and the channel closed. The number of steps is the model's (log 1); the levels of CANCEL at the steps that are no check are any (log 2). -/
def Obligations.BudgetedRunCompletes : Prop :=
  ∀ (fs : List ByteFrame) (s : State) (more rest : List Byte) (later : List Instr) (draws : List ReadDraw),
    Lifecycle s → s.phase = .ready → s.params.counterWidth = none →
    ((fs.length < 4294967296 ∧ s.program = encode (.run (some fs.length) false .wholeFrameDiscard) ++ more) ∨
      (s.program = [] ∧ s.requests = .run (some fs.length) false .wholeFrameDiscard :: later)) →
    (∀ f ∈ fs, f.b0 = 0x54 ∧ crcOf s.params.crcTable [f.b0, f.b1, f.b2] = f.b3) →
    s.input = (fs.flatMap fun f => [f.b0, f.b1, f.b2, f.b3]) ++ rest →
    s.readDraws = List.replicate fs.length (.bytes 4) ++ draws →
    (∀ j < fs.length, (s.cancel :: s.cancelInputs)[2 * j + 1]? = some false) →
    ∃ t, Host.Core.run Sys2Proof.core (2 * fs.length + 2) s = .next t ∧ t.phase = .stopped ∧
      t.stopReason = .budgetReached ∧ t.channelOpen = false ∧ t.cursor = 4 * fs.length ∧ t.input = rest ∧
      t.result = some (.run ⟨fs.length, 0, 0, 0⟩ .budgetReached) ∧
      t.sink = fs.map (fun f => { rawCode := f.b2 ++ f.b1, classification := classify (f.b2 ++ f.b1), capturedAt := none })

/-! ## Numbers and records -/

/-- R36: what the numbered registers show; the latched ones have no value before RUN (R38). C3 shows the level the caller holds
CANCEL at, before RUN and between checks too; that the caller sets it between two steps is the model's choice (log 2). -/
def Obligations.NumberedRegistersShowTheState : Prop :=
  ∀ s : State,
    readReg .s0 s = .nat (match s.phase with | .reset => 0 | .ready => 1 | .running => 2 | .stopped => 3) ∧
    readReg .s1 s = .nat (match s.stopReason with
      | .none => 0 | .budgetReached => 1 | .cancelled => 2 | .transportFailure => 3 | .initFailed => 4) ∧
    readReg .s2 s = .nat s.valid ∧ readReg .s3 s = .nat s.headerMismatches ∧ readReg .s4 s = .nat s.checksumFailures ∧
    readReg .s5 s = .nat s.timeouts ∧ readReg .s6 s = .nat s.cursor ∧ readReg .s7 s = .nat 0 ∧
    readReg .s8 s = .nat (if s.channelOpen then 1 else 0) ∧ readReg .c3 s = .nat (if s.cancel then 1 else 0) ∧
    readReg .k0 s = .nat 0x54 ∧ readReg .k1 s = .table s.params.crcTable ∧
    (s.runConfig = none → readReg .c0 s = .noValue ∧ readReg .c1 s = .noValue ∧ readReg .c2 s = .noValue) ∧
    (∀ b ts, s.runConfig = some ⟨b, ts, .wholeFrameDiscard⟩ →
      readReg .c0 s = .budget b ∧ readReg .c1 s = .nat (if ts then 1 else 0) ∧ readReg .c2 s = .nat 0)

/-- R220, R76: the numbers of the errors and of the classifications. -/
def Obligations.OutcomeCodesAreAsAssigned : Prop :=
  (∀ v, resultCode (.crc v) = 0) ∧ (∀ x, resultCode (.decoded (.ok x)) = 0) ∧
  resultCode (.decoded (.err .headerMismatch)) = 1 ∧ resultCode (.decoded (.err .checksumFailed)) = 2 ∧
  resultCode (.frame (.err .timeout)) = 3 ∧ resultCode (.frame (.err .transportFailure)) = 4 ∧
  resultCode (.init (.err .writeFailed)) = 5 ∧
  classCode .negativeInfinity = 0 ∧ classCode .negativeOne = 1 ∧ classCode .positiveInfinity = 2 ∧
  (∀ n, classCode (.measurement n) = 3)

/-- R79: the reference sink's distance records are the codes, low byte first, one per sample in order; its delta records are
4 bytes, low byte first, one per sample. -/
def Obligations.SinkRecordsAreLittleEndian : Prop :=
  (∀ (lo hi : Byte) (cl : Classification) (at_ : Option Nat), distanceRecord ⟨hi ++ lo, cl, at_⟩ = [lo, hi]) ∧
  (∀ d0 d1 d2 d3 : Byte, deltaRecord (d3 ++ d2 ++ d1 ++ d0) = [d0, d1, d2, d3]) ∧
  (∀ (s : State) (x : Sample), distanceLog { s with sink := s.sink ++ [x] } = distanceLog s ++ distanceRecord x) ∧
  (∀ s : State, (distanceLog s).length = 2 * s.sink.length ∧ (deltaLog s).length = 4 * s.sink.length)

/-- R32, R36, R231: only the caller writes CANCEL. The engine's part of a step leaves it and the caller's coming levels alone, in
every phase; after the step CANCEL, and register C3, show the level the caller sets next. That this is between two steps, as
listed or free, is the model's choice (log 2). -/
def Obligations.OnlyTheCallerSetsCancel : Prop :=
  (∀ s u : State, engineStep s = .next u → u.cancel = s.cancel ∧ u.cancelInputs = s.cancelInputs) ∧
  (∀ (s t : State) (level : Bool) (levels : List Bool), step s = .next t → s.cancelInputs = level :: levels →
    t.cancel = level ∧ t.cancelInputs = levels ∧ readReg .c3 t = .nat (if level then 1 else 0))
end

