-- ==== Sys2Proof/Laws/State.lean ====
section
/-! SUPPORT. One lemma per field and named update of State (Machine/Ops.lean, Machine/Pipeline.lean), so that no later
proof unfolds a record update. -/

namespace Sys2Proof.Machine

@[simp] theorem logEvent_params (e : Event) (s : State) : (logEvent e s).params = s.params := rfl
@[simp] theorem logEvent_acc (e : Event) (s : State) : (logEvent e s).acc = s.acc := rfl
@[simp] theorem logEvent_frame (e : Event) (s : State) : (logEvent e s).frame = s.frame := rfl
@[simp] theorem logEvent_syncState (e : Event) (s : State) : (logEvent e s).syncState = s.syncState := rfl
@[simp] theorem logEvent_cursor (e : Event) (s : State) : (logEvent e s).cursor = s.cursor := rfl
@[simp] theorem logEvent_phase (e : Event) (s : State) : (logEvent e s).phase = s.phase := rfl
@[simp] theorem logEvent_stopReason (e : Event) (s : State) : (logEvent e s).stopReason = s.stopReason := rfl
@[simp] theorem logEvent_valid (e : Event) (s : State) : (logEvent e s).valid = s.valid := rfl
@[simp] theorem logEvent_headerMismatches (e : Event) (s : State) : (logEvent e s).headerMismatches = s.headerMismatches := rfl
@[simp] theorem logEvent_checksumFailures (e : Event) (s : State) : (logEvent e s).checksumFailures = s.checksumFailures := rfl
@[simp] theorem logEvent_timeouts (e : Event) (s : State) : (logEvent e s).timeouts = s.timeouts := rfl
@[simp] theorem logEvent_cancel (e : Event) (s : State) : (logEvent e s).cancel = s.cancel := rfl
@[simp] theorem logEvent_runConfig (e : Event) (s : State) : (logEvent e s).runConfig = s.runConfig := rfl
@[simp] theorem logEvent_channelOpen (e : Event) (s : State) : (logEvent e s).channelOpen = s.channelOpen := rfl
@[simp] theorem logEvent_events (e : Event) (s : State) : (logEvent e s).events = s.events ++ [e] := rfl
@[simp] theorem logEvent_input (e : Event) (s : State) : (logEvent e s).input = s.input := rfl
@[simp] theorem logEvent_sourceEnds (e : Event) (s : State) : (logEvent e s).sourceEnds = s.sourceEnds := rfl
@[simp] theorem logEvent_output (e : Event) (s : State) : (logEvent e s).output = s.output := rfl
@[simp] theorem logEvent_sink (e : Event) (s : State) : (logEvent e s).sink = s.sink := rfl
@[simp] theorem logEvent_program (e : Event) (s : State) : (logEvent e s).program = s.program := rfl
@[simp] theorem logEvent_requests (e : Event) (s : State) : (logEvent e s).requests = s.requests := rfl
@[simp] theorem logEvent_engineReq (e : Event) (s : State) : (logEvent e s).engineReq = s.engineReq := rfl
@[simp] theorem logEvent_result (e : Event) (s : State) : (logEvent e s).result = s.result := rfl
@[simp] theorem logEvent_readDraws (e : Event) (s : State) : (logEvent e s).readDraws = s.readDraws := rfl
@[simp] theorem logEvent_writeDraws (e : Event) (s : State) : (logEvent e s).writeDraws = s.writeDraws := rfl
@[simp] theorem logEvent_clockDraws (e : Event) (s : State) : (logEvent e s).clockDraws = s.clockDraws := rfl
@[simp] theorem logEvent_clockNow (e : Event) (s : State) : (logEvent e s).clockNow = s.clockNow := rfl
@[simp] theorem logEvent_cancelInputs (e : Event) (s : State) : (logEvent e s).cancelInputs = s.cancelInputs := rfl
@[simp] theorem logEvent_drawNo (e : Event) (s : State) : (logEvent e s).drawNo = s.drawNo := rfl

@[simp] theorem accStart_params (s : State) : (accStart s).params = s.params := rfl
@[simp] theorem accStart_acc (s : State) : (accStart s).acc = some 0x00 := rfl
@[simp] theorem accStart_frame (s : State) : (accStart s).frame = s.frame := rfl
@[simp] theorem accStart_syncState (s : State) : (accStart s).syncState = s.syncState := rfl
@[simp] theorem accStart_cursor (s : State) : (accStart s).cursor = s.cursor := rfl
@[simp] theorem accStart_phase (s : State) : (accStart s).phase = s.phase := rfl
@[simp] theorem accStart_stopReason (s : State) : (accStart s).stopReason = s.stopReason := rfl
@[simp] theorem accStart_valid (s : State) : (accStart s).valid = s.valid := rfl
@[simp] theorem accStart_headerMismatches (s : State) : (accStart s).headerMismatches = s.headerMismatches := rfl
@[simp] theorem accStart_checksumFailures (s : State) : (accStart s).checksumFailures = s.checksumFailures := rfl
@[simp] theorem accStart_timeouts (s : State) : (accStart s).timeouts = s.timeouts := rfl
@[simp] theorem accStart_cancel (s : State) : (accStart s).cancel = s.cancel := rfl
@[simp] theorem accStart_runConfig (s : State) : (accStart s).runConfig = s.runConfig := rfl
@[simp] theorem accStart_channelOpen (s : State) : (accStart s).channelOpen = s.channelOpen := rfl
@[simp] theorem accStart_events (s : State) : (accStart s).events = s.events := rfl
@[simp] theorem accStart_input (s : State) : (accStart s).input = s.input := rfl
@[simp] theorem accStart_sourceEnds (s : State) : (accStart s).sourceEnds = s.sourceEnds := rfl
@[simp] theorem accStart_output (s : State) : (accStart s).output = s.output := rfl
@[simp] theorem accStart_sink (s : State) : (accStart s).sink = s.sink := rfl
@[simp] theorem accStart_program (s : State) : (accStart s).program = s.program := rfl
@[simp] theorem accStart_requests (s : State) : (accStart s).requests = s.requests := rfl
@[simp] theorem accStart_engineReq (s : State) : (accStart s).engineReq = s.engineReq := rfl
@[simp] theorem accStart_result (s : State) : (accStart s).result = s.result := rfl
@[simp] theorem accStart_readDraws (s : State) : (accStart s).readDraws = s.readDraws := rfl
@[simp] theorem accStart_writeDraws (s : State) : (accStart s).writeDraws = s.writeDraws := rfl
@[simp] theorem accStart_clockDraws (s : State) : (accStart s).clockDraws = s.clockDraws := rfl
@[simp] theorem accStart_clockNow (s : State) : (accStart s).clockNow = s.clockNow := rfl
@[simp] theorem accStart_cancelInputs (s : State) : (accStart s).cancelInputs = s.cancelInputs := rfl
@[simp] theorem accStart_drawNo (s : State) : (accStart s).drawNo = s.drawNo := rfl

@[simp] theorem consume_params (n : Nat) (s : State) : (consume n s).params = s.params := rfl
@[simp] theorem consume_acc (n : Nat) (s : State) : (consume n s).acc = s.acc := rfl
@[simp] theorem consume_frame (n : Nat) (s : State) : (consume n s).frame = s.frame := rfl
@[simp] theorem consume_syncState (n : Nat) (s : State) : (consume n s).syncState = s.syncState := rfl
@[simp] theorem consume_cursor (n : Nat) (s : State) : (consume n s).cursor = s.cursor + n := rfl
@[simp] theorem consume_phase (n : Nat) (s : State) : (consume n s).phase = s.phase := rfl
@[simp] theorem consume_stopReason (n : Nat) (s : State) : (consume n s).stopReason = s.stopReason := rfl
@[simp] theorem consume_valid (n : Nat) (s : State) : (consume n s).valid = s.valid := rfl
@[simp] theorem consume_headerMismatches (n : Nat) (s : State) : (consume n s).headerMismatches = s.headerMismatches := rfl
@[simp] theorem consume_checksumFailures (n : Nat) (s : State) : (consume n s).checksumFailures = s.checksumFailures := rfl
@[simp] theorem consume_timeouts (n : Nat) (s : State) : (consume n s).timeouts = s.timeouts := rfl
@[simp] theorem consume_cancel (n : Nat) (s : State) : (consume n s).cancel = s.cancel := rfl
@[simp] theorem consume_runConfig (n : Nat) (s : State) : (consume n s).runConfig = s.runConfig := rfl
@[simp] theorem consume_channelOpen (n : Nat) (s : State) : (consume n s).channelOpen = s.channelOpen := rfl
@[simp] theorem consume_events (n : Nat) (s : State) : (consume n s).events = s.events := rfl
@[simp] theorem consume_input (n : Nat) (s : State) : (consume n s).input = s.input.drop n := rfl
@[simp] theorem consume_sourceEnds (n : Nat) (s : State) : (consume n s).sourceEnds = s.sourceEnds := rfl
@[simp] theorem consume_output (n : Nat) (s : State) : (consume n s).output = s.output := rfl
@[simp] theorem consume_sink (n : Nat) (s : State) : (consume n s).sink = s.sink := rfl
@[simp] theorem consume_program (n : Nat) (s : State) : (consume n s).program = s.program := rfl
@[simp] theorem consume_requests (n : Nat) (s : State) : (consume n s).requests = s.requests := rfl
@[simp] theorem consume_engineReq (n : Nat) (s : State) : (consume n s).engineReq = s.engineReq := rfl
@[simp] theorem consume_result (n : Nat) (s : State) : (consume n s).result = s.result := rfl
@[simp] theorem consume_readDraws (n : Nat) (s : State) : (consume n s).readDraws = s.readDraws := rfl
@[simp] theorem consume_writeDraws (n : Nat) (s : State) : (consume n s).writeDraws = s.writeDraws := rfl
@[simp] theorem consume_clockDraws (n : Nat) (s : State) : (consume n s).clockDraws = s.clockDraws := rfl
@[simp] theorem consume_clockNow (n : Nat) (s : State) : (consume n s).clockNow = s.clockNow := rfl
@[simp] theorem consume_cancelInputs (n : Nat) (s : State) : (consume n s).cancelInputs = s.cancelInputs := rfl
@[simp] theorem consume_drawNo (n : Nat) (s : State) : (consume n s).drawNo = s.drawNo := rfl

@[simp] theorem sinkEmit_params (x : Sample) (s : State) : (sinkEmit x s).params = s.params := rfl
@[simp] theorem sinkEmit_acc (x : Sample) (s : State) : (sinkEmit x s).acc = s.acc := rfl
@[simp] theorem sinkEmit_frame (x : Sample) (s : State) : (sinkEmit x s).frame = s.frame := rfl
@[simp] theorem sinkEmit_syncState (x : Sample) (s : State) : (sinkEmit x s).syncState = s.syncState := rfl
@[simp] theorem sinkEmit_cursor (x : Sample) (s : State) : (sinkEmit x s).cursor = s.cursor := rfl
@[simp] theorem sinkEmit_phase (x : Sample) (s : State) : (sinkEmit x s).phase = s.phase := rfl
@[simp] theorem sinkEmit_stopReason (x : Sample) (s : State) : (sinkEmit x s).stopReason = s.stopReason := rfl
@[simp] theorem sinkEmit_valid (x : Sample) (s : State) : (sinkEmit x s).valid = s.valid := rfl
@[simp] theorem sinkEmit_headerMismatches (x : Sample) (s : State) : (sinkEmit x s).headerMismatches = s.headerMismatches := rfl
@[simp] theorem sinkEmit_checksumFailures (x : Sample) (s : State) : (sinkEmit x s).checksumFailures = s.checksumFailures := rfl
@[simp] theorem sinkEmit_timeouts (x : Sample) (s : State) : (sinkEmit x s).timeouts = s.timeouts := rfl
@[simp] theorem sinkEmit_cancel (x : Sample) (s : State) : (sinkEmit x s).cancel = s.cancel := rfl
@[simp] theorem sinkEmit_runConfig (x : Sample) (s : State) : (sinkEmit x s).runConfig = s.runConfig := rfl
@[simp] theorem sinkEmit_channelOpen (x : Sample) (s : State) : (sinkEmit x s).channelOpen = s.channelOpen := rfl
@[simp] theorem sinkEmit_events (x : Sample) (s : State) : (sinkEmit x s).events = s.events := rfl
@[simp] theorem sinkEmit_input (x : Sample) (s : State) : (sinkEmit x s).input = s.input := rfl
@[simp] theorem sinkEmit_sourceEnds (x : Sample) (s : State) : (sinkEmit x s).sourceEnds = s.sourceEnds := rfl
@[simp] theorem sinkEmit_output (x : Sample) (s : State) : (sinkEmit x s).output = s.output := rfl
@[simp] theorem sinkEmit_sink (x : Sample) (s : State) : (sinkEmit x s).sink = s.sink ++ [x] := rfl
@[simp] theorem sinkEmit_program (x : Sample) (s : State) : (sinkEmit x s).program = s.program := rfl
@[simp] theorem sinkEmit_requests (x : Sample) (s : State) : (sinkEmit x s).requests = s.requests := rfl
@[simp] theorem sinkEmit_engineReq (x : Sample) (s : State) : (sinkEmit x s).engineReq = s.engineReq := rfl
@[simp] theorem sinkEmit_result (x : Sample) (s : State) : (sinkEmit x s).result = s.result := rfl
@[simp] theorem sinkEmit_readDraws (x : Sample) (s : State) : (sinkEmit x s).readDraws = s.readDraws := rfl
@[simp] theorem sinkEmit_writeDraws (x : Sample) (s : State) : (sinkEmit x s).writeDraws = s.writeDraws := rfl
@[simp] theorem sinkEmit_clockDraws (x : Sample) (s : State) : (sinkEmit x s).clockDraws = s.clockDraws := rfl
@[simp] theorem sinkEmit_clockNow (x : Sample) (s : State) : (sinkEmit x s).clockNow = s.clockNow := rfl
@[simp] theorem sinkEmit_cancelInputs (x : Sample) (s : State) : (sinkEmit x s).cancelInputs = s.cancelInputs := rfl
@[simp] theorem sinkEmit_drawNo (x : Sample) (s : State) : (sinkEmit x s).drawNo = s.drawNo := rfl

@[simp] theorem issueRunStep_params (s : State) : (issueRunStep s).params = s.params := rfl
@[simp] theorem issueRunStep_acc (s : State) : (issueRunStep s).acc = s.acc := rfl
@[simp] theorem issueRunStep_frame (s : State) : (issueRunStep s).frame = s.frame := rfl
@[simp] theorem issueRunStep_syncState (s : State) : (issueRunStep s).syncState = s.syncState := rfl
@[simp] theorem issueRunStep_cursor (s : State) : (issueRunStep s).cursor = s.cursor := rfl
@[simp] theorem issueRunStep_phase (s : State) : (issueRunStep s).phase = s.phase := rfl
@[simp] theorem issueRunStep_stopReason (s : State) : (issueRunStep s).stopReason = s.stopReason := rfl
@[simp] theorem issueRunStep_valid (s : State) : (issueRunStep s).valid = s.valid := rfl
@[simp] theorem issueRunStep_headerMismatches (s : State) : (issueRunStep s).headerMismatches = s.headerMismatches := rfl
@[simp] theorem issueRunStep_checksumFailures (s : State) : (issueRunStep s).checksumFailures = s.checksumFailures := rfl
@[simp] theorem issueRunStep_timeouts (s : State) : (issueRunStep s).timeouts = s.timeouts := rfl
@[simp] theorem issueRunStep_cancel (s : State) : (issueRunStep s).cancel = s.cancel := rfl
@[simp] theorem issueRunStep_runConfig (s : State) : (issueRunStep s).runConfig = s.runConfig := rfl
@[simp] theorem issueRunStep_channelOpen (s : State) : (issueRunStep s).channelOpen = s.channelOpen := rfl
@[simp] theorem issueRunStep_events (s : State) : (issueRunStep s).events = s.events := rfl
@[simp] theorem issueRunStep_input (s : State) : (issueRunStep s).input = s.input := rfl
@[simp] theorem issueRunStep_sourceEnds (s : State) : (issueRunStep s).sourceEnds = s.sourceEnds := rfl
@[simp] theorem issueRunStep_output (s : State) : (issueRunStep s).output = s.output := rfl
@[simp] theorem issueRunStep_sink (s : State) : (issueRunStep s).sink = s.sink := rfl
@[simp] theorem issueRunStep_program (s : State) : (issueRunStep s).program = s.program := rfl
@[simp] theorem issueRunStep_requests (s : State) : (issueRunStep s).requests = s.requests := rfl
@[simp] theorem issueRunStep_engineReq (s : State) : (issueRunStep s).engineReq = encode .runStep := rfl
@[simp] theorem issueRunStep_result (s : State) : (issueRunStep s).result = s.result := rfl
@[simp] theorem issueRunStep_readDraws (s : State) : (issueRunStep s).readDraws = s.readDraws := rfl
@[simp] theorem issueRunStep_writeDraws (s : State) : (issueRunStep s).writeDraws = s.writeDraws := rfl
@[simp] theorem issueRunStep_clockDraws (s : State) : (issueRunStep s).clockDraws = s.clockDraws := rfl
@[simp] theorem issueRunStep_clockNow (s : State) : (issueRunStep s).clockNow = s.clockNow := rfl
@[simp] theorem issueRunStep_cancelInputs (s : State) : (issueRunStep s).cancelInputs = s.cancelInputs := rfl
@[simp] theorem issueRunStep_drawNo (s : State) : (issueRunStep s).drawNo = s.drawNo := rfl

@[simp] theorem startRun_params (budget : Option Nat) (ts : Bool) (s : State) : (startRun budget ts s).params = s.params := rfl
@[simp] theorem startRun_acc (budget : Option Nat) (ts : Bool) (s : State) : (startRun budget ts s).acc = s.acc := rfl
@[simp] theorem startRun_frame (budget : Option Nat) (ts : Bool) (s : State) : (startRun budget ts s).frame = s.frame := rfl
@[simp] theorem startRun_syncState (budget : Option Nat) (ts : Bool) (s : State) : (startRun budget ts s).syncState = s.syncState := rfl
@[simp] theorem startRun_cursor (budget : Option Nat) (ts : Bool) (s : State) : (startRun budget ts s).cursor = s.cursor := rfl
@[simp] theorem startRun_phase (budget : Option Nat) (ts : Bool) (s : State) : (startRun budget ts s).phase = .running := rfl
@[simp] theorem startRun_stopReason (budget : Option Nat) (ts : Bool) (s : State) : (startRun budget ts s).stopReason = s.stopReason := rfl
@[simp] theorem startRun_valid (budget : Option Nat) (ts : Bool) (s : State) : (startRun budget ts s).valid = 0 := rfl
@[simp] theorem startRun_headerMismatches (budget : Option Nat) (ts : Bool) (s : State) : (startRun budget ts s).headerMismatches = 0 := rfl
@[simp] theorem startRun_checksumFailures (budget : Option Nat) (ts : Bool) (s : State) : (startRun budget ts s).checksumFailures = 0 := rfl
@[simp] theorem startRun_timeouts (budget : Option Nat) (ts : Bool) (s : State) : (startRun budget ts s).timeouts = 0 := rfl
@[simp] theorem startRun_cancel (budget : Option Nat) (ts : Bool) (s : State) : (startRun budget ts s).cancel = s.cancel := rfl
@[simp] theorem startRun_runConfig (budget : Option Nat) (ts : Bool) (s : State) : (startRun budget ts s).runConfig = some { budget := budget, timestamps := ts, resync := .wholeFrameDiscard } := rfl
@[simp] theorem startRun_channelOpen (budget : Option Nat) (ts : Bool) (s : State) : (startRun budget ts s).channelOpen = s.channelOpen := rfl
@[simp] theorem startRun_events (budget : Option Nat) (ts : Bool) (s : State) : (startRun budget ts s).events = s.events := rfl
@[simp] theorem startRun_input (budget : Option Nat) (ts : Bool) (s : State) : (startRun budget ts s).input = s.input := rfl
@[simp] theorem startRun_sourceEnds (budget : Option Nat) (ts : Bool) (s : State) : (startRun budget ts s).sourceEnds = s.sourceEnds := rfl
@[simp] theorem startRun_output (budget : Option Nat) (ts : Bool) (s : State) : (startRun budget ts s).output = s.output := rfl
@[simp] theorem startRun_sink (budget : Option Nat) (ts : Bool) (s : State) : (startRun budget ts s).sink = s.sink := rfl
@[simp] theorem startRun_program (budget : Option Nat) (ts : Bool) (s : State) : (startRun budget ts s).program = s.program := rfl
@[simp] theorem startRun_requests (budget : Option Nat) (ts : Bool) (s : State) : (startRun budget ts s).requests = s.requests := rfl
@[simp] theorem startRun_engineReq (budget : Option Nat) (ts : Bool) (s : State) : (startRun budget ts s).engineReq = s.engineReq := rfl
@[simp] theorem startRun_result (budget : Option Nat) (ts : Bool) (s : State) : (startRun budget ts s).result = none := rfl
@[simp] theorem startRun_readDraws (budget : Option Nat) (ts : Bool) (s : State) : (startRun budget ts s).readDraws = s.readDraws := rfl
@[simp] theorem startRun_writeDraws (budget : Option Nat) (ts : Bool) (s : State) : (startRun budget ts s).writeDraws = s.writeDraws := rfl
@[simp] theorem startRun_clockDraws (budget : Option Nat) (ts : Bool) (s : State) : (startRun budget ts s).clockDraws = s.clockDraws := rfl
@[simp] theorem startRun_clockNow (budget : Option Nat) (ts : Bool) (s : State) : (startRun budget ts s).clockNow = s.clockNow := rfl
@[simp] theorem startRun_cancelInputs (budget : Option Nat) (ts : Bool) (s : State) : (startRun budget ts s).cancelInputs = s.cancelInputs := rfl
@[simp] theorem startRun_drawNo (budget : Option Nat) (ts : Bool) (s : State) : (startRun budget ts s).drawNo = s.drawNo := rfl

@[simp] theorem counterUp_params (c : Counter) (s : State) : (counterUp c s).params = s.params := by cases c <;> rfl
@[simp] theorem counterUp_acc (c : Counter) (s : State) : (counterUp c s).acc = s.acc := by cases c <;> rfl
@[simp] theorem counterUp_frame (c : Counter) (s : State) : (counterUp c s).frame = s.frame := by cases c <;> rfl
@[simp] theorem counterUp_syncState (c : Counter) (s : State) : (counterUp c s).syncState = s.syncState := by cases c <;> rfl
@[simp] theorem counterUp_cursor (c : Counter) (s : State) : (counterUp c s).cursor = s.cursor := by cases c <;> rfl
@[simp] theorem counterUp_phase (c : Counter) (s : State) : (counterUp c s).phase = s.phase := by cases c <;> rfl
@[simp] theorem counterUp_stopReason (c : Counter) (s : State) : (counterUp c s).stopReason = s.stopReason := by cases c <;> rfl
@[simp] theorem counterUp_valid (c : Counter) (s : State) : (counterUp c s).valid = if c = .valid then s.valid + 1 else s.valid := by cases c <;> rfl
@[simp] theorem counterUp_headerMismatches (c : Counter) (s : State) : (counterUp c s).headerMismatches = if c = .headerMismatches then s.headerMismatches + 1 else s.headerMismatches := by cases c <;> rfl
@[simp] theorem counterUp_checksumFailures (c : Counter) (s : State) : (counterUp c s).checksumFailures = if c = .checksumFailures then s.checksumFailures + 1 else s.checksumFailures := by cases c <;> rfl
@[simp] theorem counterUp_timeouts (c : Counter) (s : State) : (counterUp c s).timeouts = if c = .timeouts then s.timeouts + 1 else s.timeouts := by cases c <;> rfl
@[simp] theorem counterUp_cancel (c : Counter) (s : State) : (counterUp c s).cancel = s.cancel := by cases c <;> rfl
@[simp] theorem counterUp_runConfig (c : Counter) (s : State) : (counterUp c s).runConfig = s.runConfig := by cases c <;> rfl
@[simp] theorem counterUp_channelOpen (c : Counter) (s : State) : (counterUp c s).channelOpen = s.channelOpen := by cases c <;> rfl
@[simp] theorem counterUp_events (c : Counter) (s : State) : (counterUp c s).events = s.events := by cases c <;> rfl
@[simp] theorem counterUp_input (c : Counter) (s : State) : (counterUp c s).input = s.input := by cases c <;> rfl
@[simp] theorem counterUp_sourceEnds (c : Counter) (s : State) : (counterUp c s).sourceEnds = s.sourceEnds := by cases c <;> rfl
@[simp] theorem counterUp_output (c : Counter) (s : State) : (counterUp c s).output = s.output := by cases c <;> rfl
@[simp] theorem counterUp_sink (c : Counter) (s : State) : (counterUp c s).sink = s.sink := by cases c <;> rfl
@[simp] theorem counterUp_program (c : Counter) (s : State) : (counterUp c s).program = s.program := by cases c <;> rfl
@[simp] theorem counterUp_requests (c : Counter) (s : State) : (counterUp c s).requests = s.requests := by cases c <;> rfl
@[simp] theorem counterUp_engineReq (c : Counter) (s : State) : (counterUp c s).engineReq = s.engineReq := by cases c <;> rfl
@[simp] theorem counterUp_result (c : Counter) (s : State) : (counterUp c s).result = s.result := by cases c <;> rfl
@[simp] theorem counterUp_readDraws (c : Counter) (s : State) : (counterUp c s).readDraws = s.readDraws := by cases c <;> rfl
@[simp] theorem counterUp_writeDraws (c : Counter) (s : State) : (counterUp c s).writeDraws = s.writeDraws := by cases c <;> rfl
@[simp] theorem counterUp_clockDraws (c : Counter) (s : State) : (counterUp c s).clockDraws = s.clockDraws := by cases c <;> rfl
@[simp] theorem counterUp_clockNow (c : Counter) (s : State) : (counterUp c s).clockNow = s.clockNow := by cases c <;> rfl
@[simp] theorem counterUp_cancelInputs (c : Counter) (s : State) : (counterUp c s).cancelInputs = s.cancelInputs := by cases c <;> rfl
@[simp] theorem counterUp_drawNo (c : Counter) (s : State) : (counterUp c s).drawNo = s.drawNo := by cases c <;> rfl

@[simp] theorem afterReadDraw_params (s : State) : (afterReadDraw s).params = s.params := by unfold afterReadDraw; split <;> rfl
@[simp] theorem afterReadDraw_acc (s : State) : (afterReadDraw s).acc = s.acc := by unfold afterReadDraw; split <;> rfl
@[simp] theorem afterReadDraw_frame (s : State) : (afterReadDraw s).frame = s.frame := by unfold afterReadDraw; split <;> rfl
@[simp] theorem afterReadDraw_syncState (s : State) : (afterReadDraw s).syncState = s.syncState := by unfold afterReadDraw; split <;> rfl
@[simp] theorem afterReadDraw_cursor (s : State) : (afterReadDraw s).cursor = s.cursor := by unfold afterReadDraw; split <;> rfl
@[simp] theorem afterReadDraw_phase (s : State) : (afterReadDraw s).phase = s.phase := by unfold afterReadDraw; split <;> rfl
@[simp] theorem afterReadDraw_stopReason (s : State) : (afterReadDraw s).stopReason = s.stopReason := by unfold afterReadDraw; split <;> rfl
@[simp] theorem afterReadDraw_valid (s : State) : (afterReadDraw s).valid = s.valid := by unfold afterReadDraw; split <;> rfl
@[simp] theorem afterReadDraw_headerMismatches (s : State) : (afterReadDraw s).headerMismatches = s.headerMismatches := by unfold afterReadDraw; split <;> rfl
@[simp] theorem afterReadDraw_checksumFailures (s : State) : (afterReadDraw s).checksumFailures = s.checksumFailures := by unfold afterReadDraw; split <;> rfl
@[simp] theorem afterReadDraw_timeouts (s : State) : (afterReadDraw s).timeouts = s.timeouts := by unfold afterReadDraw; split <;> rfl
@[simp] theorem afterReadDraw_cancel (s : State) : (afterReadDraw s).cancel = s.cancel := by unfold afterReadDraw; split <;> rfl
@[simp] theorem afterReadDraw_runConfig (s : State) : (afterReadDraw s).runConfig = s.runConfig := by unfold afterReadDraw; split <;> rfl
@[simp] theorem afterReadDraw_channelOpen (s : State) : (afterReadDraw s).channelOpen = s.channelOpen := by unfold afterReadDraw; split <;> rfl
@[simp] theorem afterReadDraw_events (s : State) : (afterReadDraw s).events = s.events := by unfold afterReadDraw; split <;> rfl
@[simp] theorem afterReadDraw_input (s : State) : (afterReadDraw s).input = s.input := by unfold afterReadDraw; split <;> rfl
@[simp] theorem afterReadDraw_sourceEnds (s : State) : (afterReadDraw s).sourceEnds = s.sourceEnds := by unfold afterReadDraw; split <;> rfl
@[simp] theorem afterReadDraw_output (s : State) : (afterReadDraw s).output = s.output := by unfold afterReadDraw; split <;> rfl
@[simp] theorem afterReadDraw_sink (s : State) : (afterReadDraw s).sink = s.sink := by unfold afterReadDraw; split <;> rfl
@[simp] theorem afterReadDraw_program (s : State) : (afterReadDraw s).program = s.program := by unfold afterReadDraw; split <;> rfl
@[simp] theorem afterReadDraw_requests (s : State) : (afterReadDraw s).requests = s.requests := by unfold afterReadDraw; split <;> rfl
@[simp] theorem afterReadDraw_engineReq (s : State) : (afterReadDraw s).engineReq = s.engineReq := by unfold afterReadDraw; split <;> rfl
@[simp] theorem afterReadDraw_result (s : State) : (afterReadDraw s).result = s.result := by unfold afterReadDraw; split <;> rfl
@[simp] theorem afterReadDraw_readDraws (s : State) : (afterReadDraw s).readDraws = s.readDraws.tail := by unfold afterReadDraw; split <;> simp_all
@[simp] theorem afterReadDraw_writeDraws (s : State) : (afterReadDraw s).writeDraws = s.writeDraws := by unfold afterReadDraw; split <;> rfl
@[simp] theorem afterReadDraw_clockDraws (s : State) : (afterReadDraw s).clockDraws = s.clockDraws := by unfold afterReadDraw; split <;> rfl
@[simp] theorem afterReadDraw_clockNow (s : State) : (afterReadDraw s).clockNow = s.clockNow := by unfold afterReadDraw; split <;> rfl
@[simp] theorem afterReadDraw_cancelInputs (s : State) : (afterReadDraw s).cancelInputs = s.cancelInputs := by unfold afterReadDraw; split <;> rfl

@[simp] theorem afterWriteDraw_params (s : State) : (afterWriteDraw s).params = s.params := by unfold afterWriteDraw; split <;> rfl
@[simp] theorem afterWriteDraw_acc (s : State) : (afterWriteDraw s).acc = s.acc := by unfold afterWriteDraw; split <;> rfl
@[simp] theorem afterWriteDraw_frame (s : State) : (afterWriteDraw s).frame = s.frame := by unfold afterWriteDraw; split <;> rfl
@[simp] theorem afterWriteDraw_syncState (s : State) : (afterWriteDraw s).syncState = s.syncState := by unfold afterWriteDraw; split <;> rfl
@[simp] theorem afterWriteDraw_cursor (s : State) : (afterWriteDraw s).cursor = s.cursor := by unfold afterWriteDraw; split <;> rfl
@[simp] theorem afterWriteDraw_phase (s : State) : (afterWriteDraw s).phase = s.phase := by unfold afterWriteDraw; split <;> rfl
@[simp] theorem afterWriteDraw_stopReason (s : State) : (afterWriteDraw s).stopReason = s.stopReason := by unfold afterWriteDraw; split <;> rfl
@[simp] theorem afterWriteDraw_valid (s : State) : (afterWriteDraw s).valid = s.valid := by unfold afterWriteDraw; split <;> rfl
@[simp] theorem afterWriteDraw_headerMismatches (s : State) : (afterWriteDraw s).headerMismatches = s.headerMismatches := by unfold afterWriteDraw; split <;> rfl
@[simp] theorem afterWriteDraw_checksumFailures (s : State) : (afterWriteDraw s).checksumFailures = s.checksumFailures := by unfold afterWriteDraw; split <;> rfl
@[simp] theorem afterWriteDraw_timeouts (s : State) : (afterWriteDraw s).timeouts = s.timeouts := by unfold afterWriteDraw; split <;> rfl
@[simp] theorem afterWriteDraw_cancel (s : State) : (afterWriteDraw s).cancel = s.cancel := by unfold afterWriteDraw; split <;> rfl
@[simp] theorem afterWriteDraw_runConfig (s : State) : (afterWriteDraw s).runConfig = s.runConfig := by unfold afterWriteDraw; split <;> rfl
@[simp] theorem afterWriteDraw_channelOpen (s : State) : (afterWriteDraw s).channelOpen = s.channelOpen := by unfold afterWriteDraw; split <;> rfl
@[simp] theorem afterWriteDraw_events (s : State) : (afterWriteDraw s).events = s.events := by unfold afterWriteDraw; split <;> rfl
@[simp] theorem afterWriteDraw_input (s : State) : (afterWriteDraw s).input = s.input := by unfold afterWriteDraw; split <;> rfl
@[simp] theorem afterWriteDraw_sourceEnds (s : State) : (afterWriteDraw s).sourceEnds = s.sourceEnds := by unfold afterWriteDraw; split <;> rfl
@[simp] theorem afterWriteDraw_output (s : State) : (afterWriteDraw s).output = s.output := by unfold afterWriteDraw; split <;> rfl
@[simp] theorem afterWriteDraw_sink (s : State) : (afterWriteDraw s).sink = s.sink := by unfold afterWriteDraw; split <;> rfl
@[simp] theorem afterWriteDraw_program (s : State) : (afterWriteDraw s).program = s.program := by unfold afterWriteDraw; split <;> rfl
@[simp] theorem afterWriteDraw_requests (s : State) : (afterWriteDraw s).requests = s.requests := by unfold afterWriteDraw; split <;> rfl
@[simp] theorem afterWriteDraw_engineReq (s : State) : (afterWriteDraw s).engineReq = s.engineReq := by unfold afterWriteDraw; split <;> rfl
@[simp] theorem afterWriteDraw_result (s : State) : (afterWriteDraw s).result = s.result := by unfold afterWriteDraw; split <;> rfl
@[simp] theorem afterWriteDraw_readDraws (s : State) : (afterWriteDraw s).readDraws = s.readDraws := by unfold afterWriteDraw; split <;> rfl
@[simp] theorem afterWriteDraw_writeDraws (s : State) : (afterWriteDraw s).writeDraws = s.writeDraws.tail := by unfold afterWriteDraw; split <;> simp_all
@[simp] theorem afterWriteDraw_clockDraws (s : State) : (afterWriteDraw s).clockDraws = s.clockDraws := by unfold afterWriteDraw; split <;> rfl
@[simp] theorem afterWriteDraw_clockNow (s : State) : (afterWriteDraw s).clockNow = s.clockNow := by unfold afterWriteDraw; split <;> rfl
@[simp] theorem afterWriteDraw_cancelInputs (s : State) : (afterWriteDraw s).cancelInputs = s.cancelInputs := by unfold afterWriteDraw; split <;> rfl

@[simp] theorem tickClock_params (s : State) : (tickClock s).params = s.params := by unfold tickClock; split <;> rfl
@[simp] theorem tickClock_acc (s : State) : (tickClock s).acc = s.acc := by unfold tickClock; split <;> rfl
@[simp] theorem tickClock_frame (s : State) : (tickClock s).frame = s.frame := by unfold tickClock; split <;> rfl
@[simp] theorem tickClock_syncState (s : State) : (tickClock s).syncState = s.syncState := by unfold tickClock; split <;> rfl
@[simp] theorem tickClock_cursor (s : State) : (tickClock s).cursor = s.cursor := by unfold tickClock; split <;> rfl
@[simp] theorem tickClock_phase (s : State) : (tickClock s).phase = s.phase := by unfold tickClock; split <;> rfl
@[simp] theorem tickClock_stopReason (s : State) : (tickClock s).stopReason = s.stopReason := by unfold tickClock; split <;> rfl
@[simp] theorem tickClock_valid (s : State) : (tickClock s).valid = s.valid := by unfold tickClock; split <;> rfl
@[simp] theorem tickClock_headerMismatches (s : State) : (tickClock s).headerMismatches = s.headerMismatches := by unfold tickClock; split <;> rfl
@[simp] theorem tickClock_checksumFailures (s : State) : (tickClock s).checksumFailures = s.checksumFailures := by unfold tickClock; split <;> rfl
@[simp] theorem tickClock_timeouts (s : State) : (tickClock s).timeouts = s.timeouts := by unfold tickClock; split <;> rfl
@[simp] theorem tickClock_cancel (s : State) : (tickClock s).cancel = s.cancel := by unfold tickClock; split <;> rfl
@[simp] theorem tickClock_runConfig (s : State) : (tickClock s).runConfig = s.runConfig := by unfold tickClock; split <;> rfl
@[simp] theorem tickClock_channelOpen (s : State) : (tickClock s).channelOpen = s.channelOpen := by unfold tickClock; split <;> rfl
@[simp] theorem tickClock_events (s : State) : (tickClock s).events = s.events := by unfold tickClock; split <;> rfl
@[simp] theorem tickClock_input (s : State) : (tickClock s).input = s.input := by unfold tickClock; split <;> rfl
@[simp] theorem tickClock_sourceEnds (s : State) : (tickClock s).sourceEnds = s.sourceEnds := by unfold tickClock; split <;> rfl
@[simp] theorem tickClock_output (s : State) : (tickClock s).output = s.output := by unfold tickClock; split <;> rfl
@[simp] theorem tickClock_sink (s : State) : (tickClock s).sink = s.sink := by unfold tickClock; split <;> rfl
@[simp] theorem tickClock_program (s : State) : (tickClock s).program = s.program := by unfold tickClock; split <;> rfl
@[simp] theorem tickClock_requests (s : State) : (tickClock s).requests = s.requests := by unfold tickClock; split <;> rfl
@[simp] theorem tickClock_engineReq (s : State) : (tickClock s).engineReq = s.engineReq := by unfold tickClock; split <;> rfl
@[simp] theorem tickClock_result (s : State) : (tickClock s).result = s.result := by unfold tickClock; split <;> rfl
@[simp] theorem tickClock_readDraws (s : State) : (tickClock s).readDraws = s.readDraws := by unfold tickClock; split <;> rfl
@[simp] theorem tickClock_writeDraws (s : State) : (tickClock s).writeDraws = s.writeDraws := by unfold tickClock; split <;> rfl
@[simp] theorem tickClock_clockDraws (s : State) : (tickClock s).clockDraws = s.clockDraws.tail := by unfold tickClock; split <;> simp_all
@[simp] theorem tickClock_clockNow (s : State) : (tickClock s).clockNow = s.clockNow + clockDraw s := by unfold tickClock clockDraw; split <;> simp_all
@[simp] theorem tickClock_cancelInputs (s : State) : (tickClock s).cancelInputs = s.cancelInputs := by unfold tickClock; split <;> rfl

@[simp] theorem callerTurn_params (s : State) : (callerTurn s).params = s.params := by unfold callerTurn; split <;> rfl
@[simp] theorem callerTurn_acc (s : State) : (callerTurn s).acc = s.acc := by unfold callerTurn; split <;> rfl
@[simp] theorem callerTurn_frame (s : State) : (callerTurn s).frame = s.frame := by unfold callerTurn; split <;> rfl
@[simp] theorem callerTurn_syncState (s : State) : (callerTurn s).syncState = s.syncState := by unfold callerTurn; split <;> rfl
@[simp] theorem callerTurn_cursor (s : State) : (callerTurn s).cursor = s.cursor := by unfold callerTurn; split <;> rfl
@[simp] theorem callerTurn_phase (s : State) : (callerTurn s).phase = s.phase := by unfold callerTurn; split <;> rfl
@[simp] theorem callerTurn_stopReason (s : State) : (callerTurn s).stopReason = s.stopReason := by unfold callerTurn; split <;> rfl
@[simp] theorem callerTurn_valid (s : State) : (callerTurn s).valid = s.valid := by unfold callerTurn; split <;> rfl
@[simp] theorem callerTurn_headerMismatches (s : State) : (callerTurn s).headerMismatches = s.headerMismatches := by unfold callerTurn; split <;> rfl
@[simp] theorem callerTurn_checksumFailures (s : State) : (callerTurn s).checksumFailures = s.checksumFailures := by unfold callerTurn; split <;> rfl
@[simp] theorem callerTurn_timeouts (s : State) : (callerTurn s).timeouts = s.timeouts := by unfold callerTurn; split <;> rfl
@[simp] theorem callerTurn_runConfig (s : State) : (callerTurn s).runConfig = s.runConfig := by unfold callerTurn; split <;> rfl
@[simp] theorem callerTurn_channelOpen (s : State) : (callerTurn s).channelOpen = s.channelOpen := by unfold callerTurn; split <;> rfl
@[simp] theorem callerTurn_events (s : State) : (callerTurn s).events = s.events := by unfold callerTurn; split <;> rfl
@[simp] theorem callerTurn_input (s : State) : (callerTurn s).input = s.input := by unfold callerTurn; split <;> rfl
@[simp] theorem callerTurn_sourceEnds (s : State) : (callerTurn s).sourceEnds = s.sourceEnds := by unfold callerTurn; split <;> rfl
@[simp] theorem callerTurn_output (s : State) : (callerTurn s).output = s.output := by unfold callerTurn; split <;> rfl
@[simp] theorem callerTurn_sink (s : State) : (callerTurn s).sink = s.sink := by unfold callerTurn; split <;> rfl
@[simp] theorem callerTurn_program (s : State) : (callerTurn s).program = s.program := by unfold callerTurn; split <;> rfl
@[simp] theorem callerTurn_requests (s : State) : (callerTurn s).requests = s.requests := by unfold callerTurn; split <;> rfl
@[simp] theorem callerTurn_engineReq (s : State) : (callerTurn s).engineReq = s.engineReq := by unfold callerTurn; split <;> rfl
@[simp] theorem callerTurn_result (s : State) : (callerTurn s).result = s.result := by unfold callerTurn; split <;> rfl
@[simp] theorem callerTurn_readDraws (s : State) : (callerTurn s).readDraws = s.readDraws := by unfold callerTurn; split <;> rfl
@[simp] theorem callerTurn_writeDraws (s : State) : (callerTurn s).writeDraws = s.writeDraws := by unfold callerTurn; split <;> rfl
@[simp] theorem callerTurn_clockDraws (s : State) : (callerTurn s).clockDraws = s.clockDraws := by unfold callerTurn; split <;> rfl
@[simp] theorem callerTurn_clockNow (s : State) : (callerTurn s).clockNow = s.clockNow := by unfold callerTurn; split <;> rfl
@[simp] theorem callerTurn_cancelInputs (s : State) : (callerTurn s).cancelInputs = s.cancelInputs.tail := by unfold callerTurn; split <;> simp_all

end Sys2Proof.Machine
end

