-- ==== Sys2Proof/Laws/Ops.lean ====
section
/-! SUPPORT. What each shared operation can do, once: provers cite these instead of unfolding Machine/Ops.lean. -/

namespace Sys2Proof.Machine

/-! ### Guards and sequencing -/

@[simp] theorem andThen_next_left (s : State) (k : State → Answer) : andThen (.next s) k = k s := rfl
@[simp] theorem andThen_fault_left (r : Fault) (k : State → Answer) : andThen (.fault r) k = .fault r := rfl
@[simp] theorem andThen_refused_left (r : Refusal) (k : State → Answer) : andThen (.refused r) k = .refused r := rfl

theorem andThen_eq_next {o : Answer} {k : State → Answer} {t : State} :
    andThen o k = .next t ↔ ∃ u, o = .next u ∧ k u = .next t := by
  cases o <;> simp [andThen]

theorem andThen_eq_fault {o : Answer} {k : State → Answer} {r : Fault} :
    andThen o k = .fault r ↔ o = .fault r ∨ ∃ u, o = .next u ∧ k u = .fault r := by
  cases o <;> simp [andThen]

@[simp] theorem thenCaller_next (s : State) : thenCaller (.next s) = .next (callerTurn s) := rfl
@[simp] theorem thenCaller_fault (r : Fault) : thenCaller (.fault r) = .fault r := rfl
@[simp] theorem thenCaller_refused (r : Refusal) : thenCaller (.refused r) = .refused r := rfl

theorem thenCaller_eq_next {o : Answer} {t : State} : thenCaller o = .next t ↔ ∃ u, o = .next u ∧ t = callerTurn u := by
  cases o <;> simp [eq_comm]

/-- The caller's turn changes CANCEL, what is left of its levels, and the count of free values, and nothing else. -/
theorem callerTurn_eq (s : State) :
    callerTurn s = { s with cancel := (callerTurn s).cancel, cancelInputs := s.cancelInputs.tail, drawNo := (callerTurn s).drawNo } := by
  unfold callerTurn
  split <;> simp_all

/-- The level CANCEL has now and those the caller gives it next, read one step later. -/
theorem levels_callerTurn {s : State} {n : Nat} {c : Bool} (h : (s.cancel :: s.cancelInputs)[n + 1]? = some c) :
    ((callerTurn s).cancel :: (callerTurn s).cancelInputs)[n]? = some c := by
  unfold callerTurn
  cases hl : s.cancelInputs with
  | nil => rw [hl] at h; simp at h
  | cons d ds => rw [hl] at h; simpa using h

theorem finish_eq_next {r : OpResult} {s t : State} : finish r s = .next t ↔ t = { s with result := some r } := by
  simp [finish, eq_comm]

theorem finish_ne_fault (r : OpResult) (s : State) (f : Fault) : finish r s ≠ .fault f := by simp [finish]

theorem needTable_of {s : State} (h : isPermutation s.params.crcTable = true) (body : Answer) : needTable s body = body := by
  simp [needTable, h]

theorem needTable_refused {s : State} (h : ¬ isPermutation s.params.crcTable = true) (body : Answer) :
    needTable s body = .refused .tableNotPermutation := by
  simp [needTable, h]

theorem needTable_eq_next {s t : State} {body : Answer} :
    needTable s body = .next t ↔ isPermutation s.params.crcTable = true ∧ body = .next t := by
  unfold needTable; split <;> simp_all

theorem needTable_eq_fault {s : State} {r : Fault} {body : Answer} :
    needTable s body = .fault r ↔ isPermutation s.params.crcTable = true ∧ body = .fault r := by
  unfold needTable; split <;> simp_all

theorem needPhase_of {p : Phase} {s : State} (h : s.phase = p) (body : Answer) : needPhase p s body = body := by
  simp [needPhase, h]

theorem needPhase_refused {p : Phase} {s : State} (h : s.phase ≠ p) (body : Answer) :
    needPhase p s body = .refused (.wrongPhase p) := by
  simp [needPhase, h]

theorem needPhase_eq_next {p : Phase} {s t : State} {body : Answer} :
    needPhase p s body = .next t ↔ s.phase = p ∧ body = .next t := by
  unfold needPhase; split <;> simp_all

theorem needPhase_eq_fault {p : Phase} {s : State} {r : Fault} {body : Answer} :
    needPhase p s body = .fault r ↔ s.phase = p ∧ body = .fault r := by
  unfold needPhase; split <;> simp_all

theorem needChannel_of {s : State} (h : s.channelOpen = true) (body : Answer) : needChannel s body = body := by
  simp [needChannel, h]

theorem needChannel_refused {s : State} (h : s.channelOpen = false) (body : Answer) :
    needChannel s body = .refused .channelClosed := by
  simp [needChannel, h]

theorem needChannel_eq_next {s t : State} {body : Answer} :
    needChannel s body = .next t ↔ s.channelOpen = true ∧ body = .next t := by
  unfold needChannel; split <;> simp_all

theorem needChannel_eq_fault {s : State} {r : Fault} {body : Answer} :
    needChannel s body = .fault r ↔ s.channelOpen = true ∧ body = .fault r := by
  unfold needChannel; split <;> simp_all

theorem configRead_of {s : State} {c : RunConfig} (h : s.runConfig = some c) (k : RunConfig → Answer) :
    configRead s k = k c := by
  simp [configRead, h]

theorem configRead_eq_next {s t : State} {k : RunConfig → Answer} :
    configRead s k = .next t ↔ ∃ c, s.runConfig = some c ∧ k c = .next t := by
  unfold configRead; split <;> simp_all

theorem frameRead_of {s : State} {f : ByteFrame} (h : s.frame = some f) (k : ByteFrame → Answer) :
    frameRead s k = k f := by
  simp [frameRead, h]

theorem accRead_of {s : State} {a : Byte} (h : s.acc = some a) (k : Byte → Answer) : accRead s k = k a := by
  simp [accRead, h]

/-! ### Counters -/

theorem count_of {c : Counter} {s : State} (h : counterFits s.params.counterWidth (counterValue c s) = true) :
    count c s = .next (counterUp c s) := by
  simp [count, h]

theorem count_overflow {c : Counter} {s : State}
    (h : counterFits s.params.counterWidth (counterValue c s) = false) : count c s = .fault (.counterOverflow c) := by
  simp [count, h]

theorem count_eq_next {c : Counter} {s t : State} :
    count c s = .next t ↔ counterFits s.params.counterWidth (counterValue c s) = true ∧ t = counterUp c s := by
  cases h : counterFits s.params.counterWidth (counterValue c s) with
  | true => rw [count_of h]; simp [eq_comm]
  | false => rw [count_overflow h]; simp

@[simp] theorem counterFits_unbounded (n : Nat) : counterFits none n = true := rfl

/-! ### The input channel -/

theorem streamTake_length_le (k : Nat) (s : State) : (streamTake k s).length ≤ k := by
  unfold streamTake
  rw [List.length_append, List.length_take]
  split
  · simp
  · rw [List.length_map, List.length_range]; omega

/-- While the listed bytes suffice, a read takes them. -/
theorem streamTake_listed {k : Nat} {s : State} (h : k ≤ s.input.length) : streamTake k s = s.input.take k := by
  have h0 : k - s.input.length = 0 := by omega
  unfold streamTake
  split <;> simp [h0]

/-- A stream without an end gives as many bytes as are asked for. -/
theorem streamTake_length_endless {k : Nat} {s : State} (h : s.sourceEnds = false) : (streamTake k s).length = k := by
  unfold streamTake
  rw [h, List.length_append, List.length_take]
  simp only [Bool.false_eq_true, if_false, List.length_map, List.length_range]
  omega

/-- An exhausted source gives no more than the listed bytes (spec/43_pipeline.md R180). -/
theorem streamTake_ended {k : Nat} {s : State} (h : s.sourceEnds = true) : streamTake k s = s.input.take k := by
  simp [streamTake, h]

/-- `ChanRead` answers a failure with nothing consumed, or a run of the stream's next bytes, all consumed
(spec/20_memory.md R56, R57). -/
theorem chanRead_cases (n : Nat) (s : State) :
    (readDraw s = .fail ∧ chanRead n s = (.fail, afterReadDraw s)) ∨
    (∃ k, readDraw s = .bytes k ∧ chanRead n s =
      (.bytes (streamTake (min k n) s), consume (streamTake (min k n) s).length (afterReadDraw s))) := by
  unfold chanRead
  cases h : readDraw s with
  | fail => exact .inl ⟨rfl, rfl⟩
  | bytes k => exact .inr ⟨k, rfl, rfl⟩

/-! ### The window -/

theorem frameOfBytes_eq_some {l : List Byte} {f : ByteFrame} : frameOfBytes l = some f ↔ l = frameBytes f := by
  constructor
  · intro h
    unfold frameOfBytes at h
    split at h
    · cases h; rfl
    · cases h
  · rintro rfl; rfl

theorem frameOfBytes_eq_none {l : List Byte} (hl : l.length ≤ 4) : frameOfBytes l = none ↔ l.length < 4 := by
  constructor
  · intro h
    by_contra hc
    match l, hl, hc, h with
    | [_, _, _, _], _, _, h => simp [frameOfBytes] at h
    | [], _, hc, _ => simp at hc
    | [_], _, hc, _ => simp at hc
    | [_, _], _, hc, _ => simp at hc
    | [_, _, _], _, hc, _ => simp at hc
    | _ :: _ :: _ :: _ :: _ :: _, hl, _, _ => simp only [List.length_cons] at hl; omega
  · intro h
    cases hf : frameOfBytes l with
    | none => rfl
    | some f =>
      rw [frameOfBytes_eq_some.mp hf] at h
      simp [frameBytes] at h

@[simp] theorem frameBytes_length (f : ByteFrame) : (frameBytes f).length = 4 := rfl

/-- Every window read ends in one of three ways (spec/42_stream_sync.md R151). -/
theorem pullFrame_cases (s : State) :
    (readDraw s = .fail ∧
      pullFrame s = (.err .transportFailure, { afterReadDraw s with frame := none })) ∨
    (∃ k n, readDraw s = .bytes k ∧ (streamTake (min k 4) s).length = n ∧ n < 4 ∧
      pullFrame s = (.err .timeout, { consume n (afterReadDraw s) with frame := none })) ∨
    (∃ k f, readDraw s = .bytes k ∧ streamTake (min k 4) s = frameBytes f ∧
      pullFrame s = (.ok f, { consume 4 (afterReadDraw s) with frame := some f })) := by
  rcases chanRead_cases Config.frameLen s with ⟨hd, hc⟩ | ⟨k, hd, hc⟩
  · refine .inl ⟨hd, ?_⟩
    unfold pullFrame; rw [hc]
  · have hk : min k Config.frameLen = min k 4 := rfl
    rw [hk] at hc
    cases hf : frameOfBytes (streamTake (min k 4) s) with
    | some f =>
      have hb := frameOfBytes_eq_some.mp hf
      refine .inr (.inr ⟨k, f, hd, hb, ?_⟩)
      unfold pullFrame; rw [hc]
      simp only [hf]
      rw [hb]; rfl
    | none =>
      have hlen : (streamTake (min k 4) s).length ≤ 4 :=
        (streamTake_length_le _ _).trans (Nat.min_le_right _ _)
      have hlt := (frameOfBytes_eq_none hlen).mp hf
      refine .inr (.inl ⟨k, _, hd, rfl, hlt, ?_⟩)
      unfold pullFrame; rw [hc]
      simp only [hf]

theorem pullFrame_failed {s : State} (h : readDraw s = .fail) :
    pullFrame s = (.err .transportFailure, { afterReadDraw s with frame := none }) := by
  rcases pullFrame_cases s with ⟨_, hp⟩ | ⟨k, n, hd, _⟩ | ⟨k, f, hd, _⟩
  · exact hp
  · rw [h] at hd; cases hd
  · rw [h] at hd; cases hd

theorem pullFrame_short {s : State} {k : Nat} (h : readDraw s = .bytes k) (hn : (streamTake (min k 4) s).length < 4) :
    pullFrame s = (.err .timeout,
      { consume (streamTake (min k 4) s).length (afterReadDraw s) with frame := none }) := by
  rcases pullFrame_cases s with ⟨hd, _⟩ | ⟨k', n, hd, hl, _, hp⟩ | ⟨k', f, hd, hb, _⟩
  · rw [h] at hd; cases hd
  · rw [h] at hd; cases hd; subst hl; exact hp
  · rw [h] at hd; cases hd; rw [hb] at hn; simp at hn

theorem pullFrame_full {s : State} {k : Nat} {f : ByteFrame} (h : readDraw s = .bytes k)
    (hb : streamTake (min k 4) s = frameBytes f) :
    pullFrame s = (.ok f, { consume 4 (afterReadDraw s) with frame := some f }) := by
  rcases pullFrame_cases s with ⟨hd, _⟩ | ⟨k', n, hd, hl, hlt, _⟩ | ⟨k', g, hd, hg, hp⟩
  · rw [h] at hd; cases hd
  · rw [h] at hd; cases hd; rw [hb] at hl; simp at hl; omega
  · rw [h] at hd; cases hd
    have hfg : some f = some g := by
      rw [← frameOfBytes_eq_some.mpr hb, ← frameOfBytes_eq_some.mpr hg]
    cases hfg; exact hp

/-! ### Closing and stopping -/

theorem chanClose_of {s : State} (h : s.channelOpen = true) :
    chanClose s = .next { s with channelOpen := false, events := s.events ++ [.close] } := by
  simp [chanClose, needChannel, h, logEvent]

theorem chanClose_refused {s : State} (h : s.channelOpen = false) : chanClose s = .refused .channelClosed := by
  simp [chanClose, needChannel, h]

theorem stopWith_of {s : State} (h : s.channelOpen = true) (reason : StopReason) (r : OpResult) :
    stopWith reason r s = .next { s with stopReason := reason, channelOpen := false, events := s.events ++ [.close],
                                         phase := .stopped, result := some r } := by
  unfold stopWith
  rw [chanClose_of (by exact h)]
  rfl

theorem stopWith_refused {s : State} (h : s.channelOpen = false) (reason : StopReason) (r : OpResult) :
    stopWith reason r s = .refused .channelClosed := by
  unfold stopWith
  rw [chanClose_refused (by exact h)]
  rfl

/-- STOP goes to a next state only on an open channel, and this is the state (spec/43_pipeline.md R170, R175). -/
theorem stopWith_eq_next {s t : State} {reason : StopReason} {r : OpResult} :
    stopWith reason r s = .next t ↔ s.channelOpen = true ∧
      t = { s with stopReason := reason, channelOpen := false, events := s.events ++ [.close],
                   phase := .stopped, result := some r } := by
  cases h : s.channelOpen with
  | true => rw [stopWith_of h]; simp [eq_comm]
  | false => rw [stopWith_refused h]; simp

theorem stopWith_ne_fault (s : State) (reason : StopReason) (r : OpResult) (f : Fault) : stopWith reason r s ≠ .fault f := by
  cases h : s.channelOpen with
  | true => rw [stopWith_of h]; simp
  | false => rw [stopWith_refused h]; simp

end Sys2Proof.Machine
end

