-- ==== Sys2Proof/Laws/Crc.lean ====
section
/-! SUPPORT. The CRC-8 engine: what an admitted table is, what ACC computes, and how a checksum behaves under one changed
byte (spec/40_crc8.md). -/

namespace Sys2Proof.Machine

/-! ### Admitted tables -/

theorem testBit_valueMask_fold (l : List Byte) (m v : Nat) :
    (l.foldl (fun m b => m ||| (1 <<< b.toNat)) m).testBit v = (m.testBit v || l.any fun b => b.toNat == v) := by
  induction l generalizing m with
  | nil => simp
  | cons b l ih =>
    rw [List.foldl_cons, ih, List.any_cons, Nat.testBit_or, Nat.shiftLeft_eq, Nat.one_mul, Nat.testBit_two_pow,
      Bool.or_assoc]
    rfl

theorem testBit_valueMask (l : List Byte) (v : Nat) : (valueMask l).testBit v = l.any fun b => b.toNat == v := by
  simp [valueMask, testBit_valueMask_fold]

theorem tableRead_mem (t : Table) (i : Byte) : tableRead t i ∈ t.toList := by
  simp [tableRead, Vector.mem_toList_iff]

theorem mem_table_iff {t : Table} {v : Byte} : v ∈ t.toList ↔ ∃ i, tableRead t i = v := by
  constructor
  · intro h
    obtain ⟨n, hn, rfl⟩ := Vector.getElem_of_mem (Vector.mem_toList_iff.mp h)
    refine ⟨BitVec.ofNat 8 n, ?_⟩
    have hm : n % 2 ^ 8 = n := Nat.mod_eq_of_lt hn
    unfold tableRead
    congr 1
  · rintro ⟨i, rfl⟩; exact tableRead_mem t i

/-- An admitted table takes every value (spec/40_crc8.md R103). -/
theorem isPermutation_iff_surjective (t : Table) : isPermutation t = true ↔ Function.Surjective (tableRead t) := by
  have key : isPermutation t = true ↔ ∀ v : Byte, v ∈ t.toList := by
    unfold isPermutation
    rw [beq_iff_eq]
    constructor
    · intro h v
      have hb := testBit_valueMask t.toList v.toNat
      rw [h, Nat.testBit_two_pow_sub_one, decide_eq_true v.isLt] at hb
      obtain ⟨b, hm, hv⟩ := List.any_eq_true.mp hb.symm
      rw [beq_iff_eq] at hv
      rwa [← BitVec.eq_of_toNat_eq hv]
    · intro h
      refine Nat.eq_of_testBit_eq fun v => ?_
      rw [testBit_valueMask, Nat.testBit_two_pow_sub_one, Bool.eq_iff_iff, List.any_eq_true, decide_eq_true_iff]
      constructor
      · rintro ⟨b, _, hv⟩
        rw [beq_iff_eq] at hv
        subst hv
        exact b.isLt
      · intro hv
        exact ⟨BitVec.ofNat 8 v, h _, by
          rw [beq_iff_eq, BitVec.toNat_ofNat]; exact Nat.mod_eq_of_lt hv⟩
  rw [key]
  exact forall_congr' fun v => mem_table_iff

theorem isPermutation_iff_injective (t : Table) : isPermutation t = true ↔ Function.Injective (tableRead t) := by
  rw [isPermutation_iff_surjective]
  exact Finite.injective_iff_surjective.symm

theorem tableRead_injective {t : Table} (h : isPermutation t = true) : Function.Injective (tableRead t) :=
  (isPermutation_iff_injective t).mp h

/-! ### The accumulator -/

@[simp] theorem crcOf_nil (t : Table) : crcOf t [] = 0x00 := rfl

theorem crcOf_concat (t : Table) (l : List Byte) (b : Byte) : crcOf t (l ++ [b]) = crcUpdate t (crcOf t l) b := by
  simp [crcOf]

theorem crcUpdate_injective_acc {t : Table} (h : isPermutation t = true) (b : Byte) :
    Function.Injective fun a => crcUpdate t a b := by
  intro a a' he
  exact (BitVec.xor_left_inj _).mp (tableRead_injective h he)

theorem crcUpdate_injective_byte {t : Table} (h : isPermutation t = true) (a : Byte) :
    Function.Injective fun b => crcUpdate t a b := by
  intro b b' he
  exact (BitVec.xor_right_inj _).mp (tableRead_injective h he)

/-- Later bytes keep two different accumulators different. -/
theorem foldl_crcUpdate_injective {t : Table} (h : isPermutation t = true) (l : List Byte) :
    Function.Injective fun a => l.foldl (crcUpdate t) a := by
  induction l with
  | nil => exact fun _ _ he => he
  | cons b l ih => exact fun a a' he => crcUpdate_injective_acc h b (ih he)

/-- Two sequences that differ in one byte have different checksums. -/
theorem crcOf_ne_of_byte_ne {t : Table} (h : isPermutation t = true) (l r : List Byte) {b b' : Byte} (hb : b ≠ b') :
    crcOf t (l ++ b :: r) ≠ crcOf t (l ++ b' :: r) := by
  intro he
  unfold crcOf at he
  rw [List.foldl_append, List.foldl_append, List.foldl_cons, List.foldl_cons] at he
  exact hb (crcUpdate_injective_byte h _ (foldl_crcUpdate_injective h r he))

/-- Feeding ACC is the fold of CRC_STEP (spec/40_crc8.md R102). -/
theorem accFeed_of (l : List Byte) {s : State} {a : Byte} (h : s.acc = some a) :
    accFeed l s = .next { s with acc := some (l.foldl (crcUpdate s.params.crcTable) a) } := by
  induction l generalizing s a with
  | nil => cases s; cases h; rfl
  | cons b l ih => rw [accFeed, accRead_of h, ih rfl]; rfl

/-- CRC_COMPUTE as one next state. -/
theorem execCrcCompute_of {s : State} {data : List Byte} {len : Nat} (hp : isPermutation s.params.crcTable = true)
    (hl : len ≤ data.length) :
    execCrcCompute data len s =
      .next { s with acc := none, result := some (.crc (crcOf s.params.crcTable (data.take len))) } := by
  unfold execCrcCompute
  rw [needTable_of hp, if_neg (by omega), accFeed_of _ rfl]
  rfl

end Sys2Proof.Machine
end

