-- ==== Sys2Proof/Laws/Encoding.lean ====
section
/-! SUPPORT. The byte fields of the program image (spec/30_encoding.md R94): little-endian splitting and joining. -/

namespace Sys2Proof

theorem byteOf_toNat (n i : Nat) : (byteOf n i).toNat = n / 2 ^ (8 * i) % 256 := by
  rw [byteOf, BitVec.toNat_ofNat, Nat.shiftRight_eq_div_pow]

theorem byteOf_small {n : Nat} (h : n < 256) : (byteOf n 0).toNat = n := by
  rw [byteOf_toNat]; omega

/-- The four budget bytes of a 32-bit number read back as that number. -/
theorem le32_byteOf {n : Nat} (h : n < 4294967296) : le32 (byteOf n 0) (byteOf n 1) (byteOf n 2) (byteOf n 3) = n := by
  simp only [le32, byteOf_toNat]
  omega

/-- Each budget byte is a byte of the number it reads as. -/
theorem byteOf_le32 (c0 c1 c2 c3 : Byte) :
    byteOf (le32 c0 c1 c2 c3) 0 = c0 ∧ byteOf (le32 c0 c1 c2 c3) 1 = c1 ∧
    byteOf (le32 c0 c1 c2 c3) 2 = c2 ∧ byteOf (le32 c0 c1 c2 c3) 3 = c3 := by
  have h0 := c0.isLt
  have h1 := c1.isLt
  have h2 := c2.isLt
  have h3 := c3.isLt
  refine ⟨?_, ?_, ?_, ?_⟩ <;> apply BitVec.eq_of_toNat_eq <;> rw [byteOf_toNat, le32] <;> omega

theorem le32_lt (c0 c1 c2 c3 : Byte) : le32 c0 c1 c2 c3 < 4294967296 := by
  have h0 := c0.isLt
  have h1 := c1.isLt
  have h2 := c2.isLt
  have h3 := c3.isLt
  rw [le32]; omega

theorem code16_toNat (lo hi : Byte) : (code16 lo hi).toNat = hi.toNat * 256 + lo.toNat := by
  rw [code16, BitVec.toNat_append, ← Nat.shiftLeft_add_eq_or_of_lt lo.isLt, Nat.shiftLeft_eq]

/-- The two code bytes of CLASSIFY read back as the code. -/
theorem code16_byteOf (c : Code16) : code16 (byteOf c.toNat 0) (byteOf c.toNat 1) = c := by
  apply BitVec.eq_of_toNat_eq
  have h := c.isLt
  rw [code16_toNat, byteOf_toNat, byteOf_toNat]
  omega

theorem byteOf_code16 (lo hi : Byte) : byteOf (code16 lo hi).toNat 0 = lo ∧ byteOf (code16 lo hi).toNat 1 = hi := by
  have h0 := lo.isLt
  have h1 := hi.isLt
  refine ⟨?_, ?_⟩ <;> apply BitVec.eq_of_toNat_eq <;> rw [byteOf_toNat, code16_toNat] <;> omega

/-- RUN's flag byte has only its two low bits, and they say what they stand for. -/
theorem runFlags_reads (budget : Option Nat) (ts : Bool) :
    (runFlags budget ts).toNat < 4 ∧ (runFlags budget ts).getLsbD 0 = budget.isSome ∧
      (runFlags budget ts).getLsbD 1 = ts := by
  unfold runFlags
  cases budget.isSome <;> cases ts <;> decide

/-- A flag byte without reserved bits is made of its two low bits. -/
theorem runFlags_of_bits {f : Byte} (h : f.toNat < 4) (budget : Option Nat) (hb : f.getLsbD 0 = budget.isSome) :
    runFlags budget (f.getLsbD 1) = f := by
  have key : ∀ f : Byte, f.toNat < 4 →
      (if f.getLsbD 0 then (0x01 : Byte) else 0x00) ||| (if f.getLsbD 1 then 0x02 else 0x00) = f := by
    decide
  unfold runFlags
  rw [← hb]
  exact key f h

end Sys2Proof
end

