-- ==== Sys2Proof/Laws/PerInstr.lean ====
section
/-! SUPPORT. Families of statements about every operation as syntax, one lemma per constructor. -/

namespace Sys2Proof.Laws.OpCode

open Sys2Proof

/-- An operation's image starts with its select code, one of the nine in use (spec/30_encoding.md R90), and the code alone
says who may issue it (R93). -/
def Statement (i : Instr) : Prop :=
  (encode i).head? = some (opCode i) ∧ 1 ≤ (opCode i).toNat ∧ (opCode i).toNat ≤ 9 ∧
    issuerOfCode (opCode i).toNat = i.issuer

theorem crcStep (acc b : Byte) : Statement (.crcStep acc b) := ⟨rfl, by simp [opCode], by simp [opCode], rfl⟩

theorem crcCompute (data : List Byte) (len : Nat) : Statement (.crcCompute data len) :=
  ⟨rfl, by simp [opCode], by simp [opCode], rfl⟩

theorem decode (b0 b1 b2 b3 : Byte) : Statement (.decode b0 b1 b2 b3) :=
  ⟨rfl, by simp [opCode], by simp [opCode], rfl⟩

theorem classify (code : Code16) : Statement (.classify code) := ⟨rfl, by simp [opCode], by simp [opCode], rfl⟩

theorem nextFrame : Statement .nextFrame := ⟨rfl, by simp [opCode], by simp [opCode], rfl⟩

theorem runStep : Statement .runStep := ⟨rfl, by simp [opCode], by simp [opCode], rfl⟩

theorem run (budget : Option Nat) (ts : Bool) (resync : ResyncMode) : Statement (.run budget ts resync) :=
  ⟨rfl, by simp [opCode], by simp [opCode], rfl⟩

theorem initMode (mode : Mode) : Statement (.initMode mode) := ⟨rfl, by simp [opCode], by simp [opCode], rfl⟩

theorem close : Statement .close := ⟨rfl, by simp [opCode], by simp [opCode], rfl⟩

end Sys2Proof.Laws.OpCode
end

