-- ==== Sys2Proof/Laws/Pipeline.lean ====
section
/-! SUPPORT. What one attempt, one operation and one step can do, once (spec/43_pipeline.md): the inversion lemmas every
invariant proof cites. -/

namespace Sys2Proof.Machine

open Sys2Proof.Safety

/-! ### Decoding a window -/

/-- DECODE ends in one of three ways (spec/30_encoding.md R74). -/
theorem decodeFrame_cases (t : Table) (f : ByteFrame) :
    (f.b0 ≠ Config.header ∧ decodeFrame t f = .err .headerMismatch) ∨
    (f.b0 = Config.header ∧ crcOf t [f.b0, f.b1, f.b2] ≠ f.b3 ∧ decodeFrame t f = .err .checksumFailed) ∨
    (f.b0 = Config.header ∧ crcOf t [f.b0, f.b1, f.b2] = f.b3 ∧
      decodeFrame t f = .ok { rawCode := rawCode f, classification := classify (rawCode f), capturedAt := none }) := by
  by_cases h0 : f.b0 = Config.header
  · by_cases h3 : crcOf t [f.b0, f.b1, f.b2] = f.b3
    · exact .inr (.inr ⟨h0, h3, by simp [decodeFrame, h0, ← h3]⟩)
    · refine .inr (.inl ⟨h0, h3, ?_⟩)
      unfold decodeFrame
      rw [if_neg (not_not.mpr h0), if_pos h3]
  · exact .inl ⟨h0, by simp [decodeFrame, h0]⟩

/-- `{FRAME[2], FRAME[1]}` (spec/30_encoding.md R72). -/
theorem rawCode_eq_append (f : ByteFrame) : rawCode f = f.b2 ++ f.b1 := by
  cases f with
  | mk b0 b1 b2 b3 =>
    show (b2.setWidth 16 <<< 8) ||| b1.setWidth 16 = b2 ++ b1
    rw [BitVec.append_def, BitVec.shiftLeftZeroExtend_eq, BitVec.setWidth'_eq]

/-! ### The end of an attempt -/

/-- The counter part of an attempt's end (spec/43_pipeline.md R173). -/
def countOutcome (o : AttemptOutcome) (s : State) : State :=
  match counterOf o with
  | some c => counterUp c s
  | none => s

theorem endAttempt_of {o : AttemptOutcome} {s : State}
    (h : ∀ c, counterOf o = some c → counterFits s.params.counterWidth (counterValue c s) = true) :
    endAttempt o s = .next { countOutcome o s with events := s.events ++ [.attempt o], result := some (.attempt o) } := by
  cases o with
  | transportFailure => rfl
  | valid x => unfold endAttempt; simp only [counterOf]; rw [count_of (h _ rfl)]; rfl
  | headerMismatch => unfold endAttempt; simp only [counterOf]; rw [count_of (h _ rfl)]; rfl
  | checksumFailed => unfold endAttempt; simp only [counterOf]; rw [count_of (h _ rfl)]; rfl
  | timeout => unfold endAttempt; simp only [counterOf]; rw [count_of (h _ rfl)]; rfl

theorem endAttempt_overflow {o : AttemptOutcome} {c : Counter} {s : State} (hc : counterOf o = some c)
    (h : counterFits s.params.counterWidth (counterValue c s) = false) :
    endAttempt o s = .fault (.counterOverflow c) := by
  unfold endAttempt
  rw [hc]
  simp only
  rw [count_overflow h]; rfl

theorem endAttempt_eq_next {o : AttemptOutcome} {s t : State} (h : endAttempt o s = .next t) :
    t = { countOutcome o s with events := s.events ++ [.attempt o], result := some (.attempt o) } := by
  by_cases hf : ∀ c, counterOf o = some c → counterFits s.params.counterWidth (counterValue c s) = true
  · rw [endAttempt_of hf] at h
    cases h; rfl
  · push Not at hf
    obtain ⟨c, hc, hn⟩ := hf
    rw [endAttempt_overflow hc (by simpa using hn)] at h
    cases h

/-! ### One attempt -/

/-- Everything one RUN_STEP that completes does to the state `s` under the configuration `c`: its outcome is `o`. -/
structure Attempted (s : State) (c : RunConfig) (o : AttemptOutcome) (t : State) : Prop where
  result : t.result = some (.attempt o)
  events : t.events = s.events ++ [.attempt o]
  valid : t.valid = s.valid + if counterOf o = some .valid then 1 else 0
  headerMismatches : t.headerMismatches = s.headerMismatches + if counterOf o = some .headerMismatches then 1 else 0
  checksumFailures : t.checksumFailures = s.checksumFailures + if counterOf o = some .checksumFailures then 1 else 0
  timeouts : t.timeouts = s.timeouts + if counterOf o = some .timeouts then 1 else 0
  sink : t.sink = s.sink ++ (sampleOf (.attempt o)).toList
  failedRead : o = .transportFailure → t.cursor = s.cursor ∧ t.input = s.input
  shortRead : o = .timeout → ∃ n, n < 4 ∧ t.cursor = s.cursor + n ∧ t.input = s.input.drop n
  fullRead : o ≠ .transportFailure → o ≠ .timeout → t.cursor = s.cursor + 4 ∧ t.input = s.input.drop 4
  window : (o = .transportFailure ∨ o = .timeout) → t.frame = none
  sample : ∀ x, o = .valid x → ∃ f, streamTake 4 s = frameBytes f ∧ t.frame = some f ∧ f.b0 = Config.header ∧
    crcOf s.params.crcTable [f.b0, f.b1, f.b2] = f.b3 ∧ x.rawCode = rawCode f ∧ x.classification = classify (rawCode f) ∧
    x.capturedAt = if c.timestamps then some t.clockNow else none
  clock : s.clockNow ≤ t.clockNow
  params : t.params = s.params
  acc : t.acc = s.acc
  syncState : t.syncState = s.syncState
  phase : t.phase = s.phase
  stopReason : t.stopReason = s.stopReason
  cancel : t.cancel = s.cancel
  runConfig : t.runConfig = s.runConfig
  channelOpen : t.channelOpen = s.channelOpen
  sourceEnds : t.sourceEnds = s.sourceEnds
  output : t.output = s.output
  program : t.program = s.program
  requests : t.requests = s.requests
  engineReq : t.engineReq = s.engineReq
  writeDraws : t.writeDraws = s.writeDraws
  cancelInputs : t.cancelInputs = s.cancelInputs

/-- What the timestamp draw leaves (spec/43_pipeline.md R174). -/
theorem stamp_cases (enabled : Bool) (s : State) :
    (enabled = true ∧ stamp enabled s = (some (tickClock s).clockNow, tickClock s)) ∨
    (enabled = false ∧ stamp enabled s = (none, s)) := by
  cases enabled
  · exact .inr ⟨rfl, rfl⟩
  · exact .inl ⟨rfl, rfl⟩

/-- The state between the read and the decode of a full window. -/
def windowRead (c : RunConfig) (f : ByteFrame) (s : State) : State :=
  (stamp c.timestamps { consume 4 (afterReadDraw s) with frame := some f }).2

/-- The timestamp drawn after a full read, if any. -/
def windowTime (c : RunConfig) (f : ByteFrame) (s : State) : Option Nat :=
  (stamp c.timestamps { consume 4 (afterReadDraw s) with frame := some f }).1

/-- The sample a window that passes both checks gives (spec/43_pipeline.md R171). -/
def windowSample (c : RunConfig) (f : ByteFrame) (s : State) : Sample :=
  { rawCode := rawCode f, classification := classify (rawCode f), capturedAt := windowTime c f s }

/-- The fields a full read and the timestamp draw change, and no other (spec/43_pipeline.md R171, R174). -/
theorem windowRead_eq (c : RunConfig) (f : ByteFrame) (s : State) :
    (c.timestamps = true ∧ windowTime c f s = some (s.clockNow + clockDraw (afterReadDraw s)) ∧
      windowRead c f s = tickClock { consume 4 (afterReadDraw s) with frame := some f }) ∨
    (c.timestamps = false ∧ windowTime c f s = none ∧
      windowRead c f s = { consume 4 (afterReadDraw s) with frame := some f }) := by
  unfold windowRead windowTime
  rcases stamp_cases c.timestamps { consume 4 (afterReadDraw s) with frame := some f } with ⟨hs, h⟩ | ⟨hs, h⟩
  · refine .inl ⟨hs, ?_, by rw [h]⟩
    rw [h, tickClock_clockNow]
    simp [clockDraw]
  · exact .inr ⟨hs, by rw [h], by rw [h]⟩

theorem windowRead_frame (c : RunConfig) (f : ByteFrame) (s : State) : (windowRead c f s).frame = some f := by
  rcases windowRead_eq c f s with ⟨_, _, h⟩ | ⟨_, _, h⟩
  · rw [h, tickClock_frame]
  · rw [h]

theorem windowRead_params (c : RunConfig) (f : ByteFrame) (s : State) : (windowRead c f s).params = s.params := by
  rcases windowRead_eq c f s with ⟨_, _, h⟩ | ⟨_, _, h⟩
  · rw [h, tickClock_params]; simp
  · rw [h]; simp

/-- An attempt whose read was full is the decode of its window. -/
theorem attempt_full {s : State} {c : RunConfig} {k : Nat} {f : ByteFrame} (h : readDraw s = .bytes k)
    (hb : streamTake (min k 4) s = frameBytes f) :
    attempt c s = match decodeFrame s.params.crcTable f with
      | .err .headerMismatch => endAttempt .headerMismatch (windowRead c f s)
      | .err .checksumFailed => endAttempt .checksumFailed (windowRead c f s)
      | .ok _ => endAttempt (.valid (windowSample c f s)) (sinkEmit (windowSample c f s) (windowRead c f s)) := by
  unfold attempt
  rw [pullFrame_full h hb]
  show decodeAttempt (windowTime c f s) (windowRead c f s) = _
  unfold decodeAttempt
  rw [frameRead_of (windowRead_frame c f s), windowRead_params]
  rcases decodeFrame_cases s.params.crcTable f with ⟨_, hd⟩ | ⟨_, _, hd⟩ | ⟨_, _, hd⟩ <;> (rw [hd]; try rfl)

theorem attempt_failed {s : State} {c : RunConfig} (h : readDraw s = .fail) :
    attempt c s = endAttempt .transportFailure { afterReadDraw s with frame := none } := by
  unfold attempt
  rw [pullFrame_failed h]

theorem attempt_short {s : State} {c : RunConfig} {k : Nat} (h : readDraw s = .bytes k)
    (hn : (streamTake (min k 4) s).length < 4) :
    attempt c s = endAttempt .timeout
      { consume (streamTake (min k 4) s).length (afterReadDraw s) with frame := none } := by
  unfold attempt
  rw [pullFrame_short h hn]

theorem execRunStep_eq_next {s t : State} (h : execRunStep s = .next t) :
    isPermutation s.params.crcTable = true ∧ s.phase = .running ∧ s.channelOpen = true ∧
      ∃ c, s.runConfig = some c ∧ attempt c s = .next t := by
  obtain ⟨hp, h⟩ := needTable_eq_next.mp h
  obtain ⟨hr, h⟩ := needPhase_eq_next.mp h
  obtain ⟨ho, h⟩ := needChannel_eq_next.mp h
  exact ⟨hp, hr, ho, configRead_eq_next.mp h⟩

theorem execRunStep_of {s : State} {c : RunConfig} (hp : isPermutation s.params.crcTable = true)
    (hr : s.phase = .running) (ho : s.channelOpen = true) (hc : s.runConfig = some c) :
    execRunStep s = attempt c s := by
  unfold execRunStep
  rw [needTable_of hp, needPhase_of hr, needChannel_of ho, configRead_of hc]

/-- A full window rejected by a check. -/
theorem attempted_of_rejected {s t : State} {c : RunConfig} {f : ByteFrame} {o : AttemptOutcome}
    (ho : o = .headerMismatch ∨ o = .checksumFailed) (h : endAttempt o (windowRead c f s) = .next t) :
    Attempted s c o t := by
  rw [endAttempt_eq_next h]
  rcases windowRead_eq c f s with ⟨_, _, hw⟩ | ⟨_, _, hw⟩ <;> rw [hw] <;>
    rcases ho with rfl | rfl <;> constructor <;> simp [countOutcome, counterOf, sampleOf]

/-- A read that gave four bytes took the next four of the stream. -/
theorem streamTake_four {s : State} {k : Nat} {f : ByteFrame} (h : streamTake (min k 4) s = frameBytes f) :
    streamTake 4 s = frameBytes f := by
  have hk : min k 4 = 4 := by
    have hl := streamTake_length_le (min k 4) s
    rw [h, frameBytes_length] at hl
    omega
  rwa [hk] at h

/-- A full window that passes both checks. -/
theorem attempted_of_valid {s t : State} {c : RunConfig} {f : ByteFrame} (hb : streamTake 4 s = frameBytes f) (h0 : f.b0 = Config.header)
    (h3 : crcOf s.params.crcTable [f.b0, f.b1, f.b2] = f.b3)
    (h : endAttempt (.valid (windowSample c f s)) (sinkEmit (windowSample c f s) (windowRead c f s)) = .next t) :
    Attempted s c (.valid (windowSample c f s)) t := by
  rw [endAttempt_eq_next h]
  rcases windowRead_eq c f s with ⟨hc, ht, hw⟩ | ⟨hc, ht, hw⟩ <;> unfold windowSample <;> rw [hw, ht] <;>
    constructor <;> simp [countOutcome, counterOf, sampleOf, clockDraw, hc]
  · exact ⟨hb, h0, h3⟩
  · exact ⟨hb, h0, h3⟩

/-- RUN_STEP, when it completes, is one attempt with one outcome. -/
theorem execRunStep_attempted {s t : State} (h : execRunStep s = .next t) :
    ∃ c o, s.runConfig = some c ∧ Attempted s c o t := by
  obtain ⟨_, _, _, c, hc, ha⟩ := execRunStep_eq_next h
  rcases pullFrame_cases s with ⟨hd, _⟩ | ⟨k, n, hd, hl, hn, _⟩ | ⟨k, f, hd, hb, _⟩
  · rw [attempt_failed hd] at ha
    refine ⟨c, .transportFailure, hc, ?_⟩
    rw [endAttempt_eq_next ha]
    constructor <;> simp [countOutcome, counterOf, sampleOf]
  · rw [attempt_short hd (by omega)] at ha
    refine ⟨c, .timeout, hc, ?_⟩
    rw [endAttempt_eq_next ha]
    constructor <;> simp [countOutcome, counterOf, sampleOf]
    omega
  · rw [attempt_full hd hb] at ha
    rcases decodeFrame_cases s.params.crcTable f with ⟨_, hf⟩ | ⟨_, _, hf⟩ | ⟨h0, h3, hf⟩ <;> rw [hf] at ha
    · exact ⟨c, _, hc, attempted_of_rejected (.inl rfl) ha⟩
    · exact ⟨c, _, hc, attempted_of_rejected (.inr rfl) ha⟩
    · exact ⟨c, _, hc, attempted_of_valid (streamTake_four hb) h0 h3 ha⟩

/-! ### One operation -/

theorem execInitMode_eq_next {mode : Mode} {s t : State} (h : execInitMode mode s = .next t) :
    s.phase = .reset ∧ s.channelOpen = true ∧
      ((writeDraw s = .ok ∧
        t = { afterWriteDraw s with
              output := s.output ++ frameBytes (modeCommand mode s.params)
              events := s.events ++ [.write (frameBytes (modeCommand mode s.params)) .ok]
              phase := .ready
              result := some (.init (.ok ())) }) ∨
       (∃ sent, writeDraw s = .fail sent ∧
        t = { afterWriteDraw s with
              output := s.output ++ (frameBytes (modeCommand mode s.params)).take (min sent 3)
              events := s.events ++ [.write (frameBytes (modeCommand mode s.params)) .fail, .close]
              stopReason := .initFailed
              channelOpen := false
              phase := .stopped
              result := some (.init (.err .writeFailed)) })) := by
  obtain ⟨_, h⟩ := needTable_eq_next.mp h
  obtain ⟨hr, h⟩ := needPhase_eq_next.mp h
  obtain ⟨ho, h⟩ := needChannel_eq_next.mp h
  refine ⟨hr, ho, ?_⟩
  cases hw : writeDraw s with
  | ok =>
    refine .inl ⟨rfl, ?_⟩
    simp only [sendCommand, chanWrite, hw] at h
    rw [finish_eq_next.mp h]
    simp [logEvent]
  | fail sent =>
    refine .inr ⟨sent, rfl, ?_⟩
    simp only [sendCommand, chanWrite, hw] at h
    obtain ⟨_, ht⟩ := stopWith_eq_next.mp h
    rw [ht]
    simp [logEvent]

theorem execRun_eq_next {budget : Option Nat} {ts : Bool} {resync : ResyncMode} {s t : State}
    (h : execRun budget ts resync s = .next t) :
    resync = .wholeFrameDiscard ∧ s.phase = .ready ∧ s.channelOpen = true ∧ t = startRun budget ts s := by
  obtain ⟨_, h⟩ := needTable_eq_next.mp h
  cases resync with
  | headerHunt => cases h
  | wholeFrameDiscard =>
    obtain ⟨hr, h⟩ := needPhase_eq_next.mp h
    obtain ⟨ho, h⟩ := needChannel_eq_next.mp h
    cases h
    exact ⟨rfl, hr, ho, rfl⟩

/-- The four pure operations and what they leave (spec/60_exceptions.md R227, spec/40_crc8.md R102). -/
theorem pure_eq_next {i : Instr} {s t : State} (hi : i.issuer = .caller) (h : exec i s = .next t)
    (hr : ∀ b ts m, i ≠ .run b ts m) (hm : ∀ m, i ≠ .initMode m) :
    t = { s with acc := t.acc, result := t.result } ∧ (t.acc = s.acc ∨ t.acc = none) := by
  cases i with
  | crcStep acc b =>
    obtain ⟨_, h⟩ := needTable_eq_next.mp h
    rw [finish_eq_next.mp h]; simp
  | crcCompute data len =>
    obtain ⟨hp, _⟩ := needTable_eq_next.mp h
    by_cases hl : len ≤ data.length
    · change execCrcCompute data len s = .next t at h
      rw [execCrcCompute_of hp hl] at h
      cases h; simp
    · change execCrcCompute data len s = .next t at h
      unfold execCrcCompute at h
      rw [needTable_of hp, if_pos (by omega)] at h
      cases h
  | decode b0 b1 b2 b3 =>
    obtain ⟨_, h⟩ := needTable_eq_next.mp h
    rw [finish_eq_next.mp h]; simp
  | classify code =>
    obtain ⟨_, h⟩ := needTable_eq_next.mp h
    rw [finish_eq_next.mp h]; simp
  | nextFrame => cases hi
  | runStep => cases hi
  | run b ts m => exact absurd rfl (hr b ts m)
  | initMode m => exact absurd rfl (hm m)
  | close => cases hi

/-! ### The loop and the step -/

/-- The between-frame check, when it completes (spec/43_pipeline.md R172). -/
theorem betweenFrames_eq_next {s t : State} (h : betweenFrames s = .next t) :
    ∃ c, s.runConfig = some c ∧
      ((budgetMet c.budget s.valid = true ∧ s.channelOpen = true ∧
        t = { s with stopReason := .budgetReached, channelOpen := false, events := s.events ++ [.close],
                     phase := .stopped, result := some (.run (summary s) .budgetReached) }) ∨
       (budgetMet c.budget s.valid = false ∧ s.cancel = true ∧ s.channelOpen = true ∧
        t = { s with stopReason := .cancelled, channelOpen := false, events := s.events ++ [.close],
                     phase := .stopped, result := some (.run (summary s) .cancelled) }) ∨
       (budgetMet c.budget s.valid = false ∧ s.cancel = false ∧ t = issueRunStep s)) := by
  obtain ⟨c, hc, h⟩ := configRead_eq_next.mp h
  refine ⟨c, hc, ?_⟩
  split at h
  · next hb =>
    obtain ⟨ho, ht⟩ := stopWith_eq_next.mp h
    exact .inl ⟨hb, ho, ht⟩
  · next hb =>
    split at h
    · next hl =>
      obtain ⟨ho, ht⟩ := stopWith_eq_next.mp h
      exact .inr (.inl ⟨by simpa using hb, hl, ho, ht⟩)
    · next hl =>
      cases h
      exact .inr (.inr ⟨by simpa using hb, by simpa using hl, rfl⟩)

/-- What RUN does after RUN_STEP, when it completes (spec/43_pipeline.md R170). -/
theorem afterAttempt_eq_next {s t : State} (h : afterAttempt s = .next t) :
    (s.result = some (.attempt .transportFailure) ∧ s.channelOpen = true ∧
      t = { s with stopReason := .transportFailure, channelOpen := false, events := s.events ++ [.close],
                   phase := .stopped, result := some (.run (summary s) .transportFailure) }) ∨
    (s.result ≠ some (.attempt .transportFailure) ∧ t = s) := by
  unfold afterAttempt at h
  split at h
  · next hr =>
    obtain ⟨ho, ht⟩ := stopWith_eq_next.mp h
    exact .inl ⟨hr, ho, ht⟩
  · next hr =>
    cases h
    exact .inr ⟨fun he => hr he, rfl⟩

theorem fetch_running {s : State} (he : s.engineReq = []) (hp : s.phase = .running) : fetch s = .check := by
  unfold fetch
  rw [he, hp]

theorem fetch_waiting {s : State} (he : s.engineReq = []) (hp : s.phase ≠ .running) : fetch s = fetchCaller s := by
  unfold fetch
  rw [he]
  cases h : s.phase <;> first | rfl | exact absurd h hp

theorem fetch_idle {s : State} (he : s.engineReq = []) (hp : s.phase ≠ .running) (hl : s.program = [])
    (hr : s.requests = []) : fetch s = .idle := by
  rw [fetch_waiting he hp, fetchCaller, hl, hr]

/-- With no image left, the caller's requests by value are taken in order (spec/30_encoding.md R92). -/
theorem fetch_request {s : State} {i : Instr} {rest : List Instr} (he : s.engineReq = []) (hp : s.phase ≠ .running)
    (hl : s.program = []) (hr : s.requests = i :: rest) : fetch s = takeRequest i { s with requests := rest } := by
  rw [fetch_waiting he hp, fetchCaller, hl, hr]

/-- A request by value is run exactly when the caller may issue it (spec/30_encoding.md R93). -/
theorem takeRequest_eq_op {i j : Instr} {u s1 : State} : takeRequest i u = .op j s1 ↔ i.issuer = .caller ∧ j = i ∧ s1 = u := by
  unfold takeRequest
  cases i.issuer
  · constructor
    · intro h; cases h; exact ⟨rfl, rfl, rfl⟩
    · rintro ⟨_, rfl, rfl⟩; rfl
  · constructor
    · intro h; cases h
    · rintro ⟨h, _⟩; cases h

theorem takeRequest_of {i : Instr} (h : i.issuer = .caller) (u : State) : takeRequest i u = .op i u :=
  takeRequest_eq_op.mpr ⟨h, rfl, rfl⟩

theorem takeRequest_ne_check (i : Instr) (u : State) : takeRequest i u ≠ .check := by
  unfold takeRequest; split <;> simp

theorem takeRequest_ne_idle (i : Instr) (u : State) : takeRequest i u ≠ .idle := by
  unfold takeRequest; split <;> simp

/-- With no run in progress, the caller's image is decoded from its first byte (spec/30_encoding.md R94). -/
theorem fetch_caller {s : State} (he : s.engineReq = []) (hp : s.phase ≠ .running) (hl : s.program ≠ []) :
    fetch s = fetchFrom .caller s.program fun rest => { s with program := rest } := by
  rw [fetch_waiting he hp, fetchCaller]
  cases h : s.program with
  | nil => exact absurd h hl
  | cons => rfl

/-- The engine's own request comes first. -/
theorem fetch_engine {s : State} (he : s.engineReq ≠ []) :
    fetch s = fetchFrom .engine s.engineReq fun _ => { s with engineReq := [] } := by
  unfold fetch
  cases h : s.engineReq with
  | nil => exact absurd h he
  | cons => rfl

theorem fetchFrom_eq_op {who : Issuer} {bytes : List Byte} {taken : List Byte → State} {i : Instr} {s1 : State} :
    fetchFrom who bytes taken = .op i s1 ↔ ∃ rest, decodeOp who bytes = .ok (i, rest) ∧ s1 = taken rest := by
  unfold fetchFrom
  cases decodeOp who bytes with
  | error r => simp
  | ok p =>
    constructor
    · intro h; cases h; exact ⟨_, rfl, rfl⟩
    · rintro ⟨rest, hd, rfl⟩; cases hd; rfl

theorem fetchFrom_ne_check (who : Issuer) (bytes : List Byte) (taken : List Byte → State) :
    fetchFrom who bytes taken ≠ .check := by
  unfold fetchFrom; split <;> simp

theorem fetchFrom_ne_idle (who : Issuer) (bytes : List Byte) (taken : List Byte → State) :
    fetchFrom who bytes taken ≠ .idle := by
  unfold fetchFrom; split <;> simp

theorem fetch_issued {s : State} (he : s.engineReq = encode .runStep) :
    fetch s = .op .runStep { s with engineReq := [] } := by
  rw [fetch_engine (by rw [he]; simp [encode]), he]
  rfl

theorem fetch_eq_check {s : State} (h : fetch s = .check) : s.engineReq = [] ∧ s.phase = .running := by
  by_cases he : s.engineReq = []
  · refine ⟨he, ?_⟩
    by_contra hp
    by_cases hl : s.program = []
    · cases hr : s.requests with
      | nil => rw [fetch_idle he hp hl hr] at h; cases h
      | cons i rest => rw [fetch_request he hp hl hr] at h; exact takeRequest_ne_check _ _ h
    · rw [fetch_caller he hp hl] at h; exact fetchFrom_ne_check _ _ _ h
  · rw [fetch_engine he] at h; exact absurd h (fetchFrom_ne_check _ _ _)

/-- Where an operation to run comes from. -/
theorem fetch_eq_op {s s1 : State} {i : Instr} (h : fetch s = .op i s1) :
    (s.engineReq = [] ∧ s.phase ≠ .running ∧ ∃ rest, decodeOp .caller s.program = .ok (i, rest) ∧
      s1 = { s with program := rest }) ∨
    (s.engineReq = [] ∧ s.phase ≠ .running ∧ i.issuer = .caller ∧ s.program = [] ∧ ∃ rest, s.requests = i :: rest ∧
      s1 = { s with requests := rest }) ∨
    (s.engineReq ≠ [] ∧ (∃ rest, decodeOp .engine s.engineReq = .ok (i, rest)) ∧ s1 = { s with engineReq := [] }) := by
  by_cases he : s.engineReq = []
  · by_cases hp : s.phase = .running
    · rw [fetch_running he hp] at h; cases h
    · by_cases hl : s.program = []
      · cases hr : s.requests with
        | nil => rw [fetch_idle he hp hl hr] at h; cases h
        | cons j rest =>
          rw [fetch_request he hp hl hr] at h
          obtain ⟨hi, rfl, hs⟩ := takeRequest_eq_op.mp h
          exact .inr (.inl ⟨he, hp, hi, hl, rest, rfl, hs⟩)
      · rw [fetch_caller he hp hl] at h
        exact .inl ⟨he, hp, fetchFrom_eq_op.mp h⟩
  · rw [fetch_engine he] at h
    obtain ⟨rest, hd, hs⟩ := fetchFrom_eq_op.mp h
    exact .inr (.inr ⟨he, ⟨rest, hd⟩, hs⟩)

/-- Where the engine's part of a step comes from. -/
theorem engineStep_eq_next {s t : State} (h : engineStep s = .next t) :
    (fetch s = .idle ∧ t = s) ∨
    (fetch s = .check ∧ betweenFrames s = .next t) ∨
    (∃ i s1, fetch s = .op i s1 ∧ afterOp i (exec i s1) = .next t) := by
  unfold engineStep at h
  split at h
  · next hf => cases h; exact .inl ⟨hf, rfl⟩
  · next hf => exact .inr (.inl ⟨hf, h⟩)
  · next i s1 hf => exact .inr (.inr ⟨i, s1, hf, h⟩)
  · cases h

/-- A caller's request is never an engine-internal operation (spec/30_encoding.md R93). -/
theorem decodeOp_caller_issuer {bytes rest : List Byte} {i : Instr} (h : decodeOp .caller bytes = .ok (i, rest)) :
    i.issuer = .caller := by
  cases bytes with
  | nil => cases h
  | cons code l =>
    simp only [decodeOp] at h
    split at h
    · split at h <;> cases h; rfl
    · unfold decodeCrcCompute at h
      split at h
      · split at h
        · cases h
        · split at h <;> cases h; rfl
      · cases h
    · split at h <;> cases h; rfl
    · split at h <;> cases h; rfl
    · cases h
    · cases h
    · unfold decodeRun at h
      split at h
      · split at h
        · cases h
        · split at h
          · cases h; rfl
          · split at h <;> cases h; rfl
      · cases h
    · unfold decodeInitMode at h
      split at h
      · split at h
        · cases h; rfl
        · split at h <;> cases h; rfl
      · cases h
    · cases h
    · cases h

end Sys2Proof.Machine
end

