-- ==== Sys2Proof/Laws/Step.lean ====
section
/-! SUPPORT. The three kinds of step, as equations, and what the machine does over several of them. -/

namespace Sys2Proof.Machine

open Sys2Proof.Safety

/-- Between two attempts of a run (spec/43_pipeline.md R172). -/
theorem step_check {s : State} (he : s.engineReq = []) (hp : s.phase = .running) : step s = thenCaller (betweenFrames s) := by
  unfold step engineStep; rw [fetch_running he hp]

/-- The attempt the engine has issued, and RUN's loop after it (spec/43_pipeline.md R170). -/
theorem step_issued {s : State} (he : s.engineReq = encode .runStep) :
    step s = thenCaller (andThen (execRunStep { s with engineReq := [] }) afterAttempt) := by
  unfold step engineStep; rw [fetch_issued he]; rfl

/-- Whatever the caller requests runs with nothing added around it. -/
theorem afterOp_caller {i : Instr} (h : i.issuer = .caller) (o : Answer) : afterOp i o = o := by
  cases i <;> first | rfl | cases h

/-- Everything one operation of a step can do, `s` being the state with the operation's bytes taken. -/
inductive Operated (s : State) : Instr → State → Prop where
  | pure {i t} (hi : i.issuer = .caller) (ht : t = { s with acc := t.acc, result := t.result })
      (ha : t.acc = s.acc ∨ t.acc = none) : Operated s i t
  | pulled (hp : s.phase = .running) (ho : s.channelOpen = true) :
      Operated s .nextFrame { (pullFrame s).2 with result := some (.frame (pullFrame s).1) }
  | attempted {c o t} (hp : s.phase = .running) (ho : s.channelOpen = true) (hc : s.runConfig = some c)
      (hn : o ≠ .transportFailure) (ha : Attempted s c o t) : Operated s .runStep t
  | failed {c u} (hp : s.phase = .running) (ho : s.channelOpen = true) (hc : s.runConfig = some c)
      (ha : Attempted s c .transportFailure u) :
      Operated s .runStep { u with
        stopReason := .transportFailure, channelOpen := false, events := u.events ++ [.close],
        phase := .stopped, result := some (.run (summary u) .transportFailure) }
  | started {budget ts} (hp : s.phase = .ready) (ho : s.channelOpen = true) :
      Operated s (.run budget ts .wholeFrameDiscard) (startRun budget ts s)
  | inited {mode} (hp : s.phase = .reset) (ho : s.channelOpen = true) (hw : writeDraw s = .ok) :
      Operated s (.initMode mode) { afterWriteDraw s with
        output := s.output ++ frameBytes (modeCommand mode s.params)
        events := s.events ++ [.write (frameBytes (modeCommand mode s.params)) .ok]
        phase := .ready
        result := some (.init (.ok ())) }
  | initFailed {mode sent} (hp : s.phase = .reset) (ho : s.channelOpen = true) (hw : writeDraw s = .fail sent) :
      Operated s (.initMode mode) { afterWriteDraw s with
        output := s.output ++ (frameBytes (modeCommand mode s.params)).take (min sent 3)
        events := s.events ++ [.write (frameBytes (modeCommand mode s.params)) .fail, .close]
        stopReason := .initFailed
        channelOpen := false
        phase := .stopped
        result := some (.init (.err .writeFailed)) }
  | closed (ho : s.channelOpen = true) :
      Operated s .close { s with channelOpen := false, events := s.events ++ [.close], result := some .closed }

theorem operated_of_next {i : Instr} {s t : State} (h : afterOp i (exec i s) = .next t) : Operated s i t := by
  cases i with
  | crcStep acc b =>
    obtain ⟨h1, h2⟩ := pure_eq_next (i := .crcStep acc b) rfl h (by simp) (by simp); exact .pure rfl h1 h2
  | crcCompute data len =>
    obtain ⟨h1, h2⟩ := pure_eq_next (i := .crcCompute data len) rfl h (by simp) (by simp); exact .pure rfl h1 h2
  | decode b0 b1 b2 b3 =>
    obtain ⟨h1, h2⟩ := pure_eq_next (i := .decode b0 b1 b2 b3) rfl h (by simp) (by simp); exact .pure rfl h1 h2
  | classify code =>
    obtain ⟨h1, h2⟩ := pure_eq_next (i := .classify code) rfl h (by simp) (by simp); exact .pure rfl h1 h2
  | nextFrame =>
    obtain ⟨_, h⟩ := needTable_eq_next.mp h
    obtain ⟨hp, h⟩ := needPhase_eq_next.mp h
    obtain ⟨ho, h⟩ := needChannel_eq_next.mp h
    rw [finish_eq_next.mp h]
    exact .pulled hp ho
  | runStep =>
    obtain ⟨u, hu, ha⟩ := andThen_eq_next.mp h
    obtain ⟨_, hp, ho, _⟩ := execRunStep_eq_next hu
    obtain ⟨c, o, hc, a⟩ := execRunStep_attempted hu
    rcases afterAttempt_eq_next ha with ⟨hr, _, rfl⟩ | ⟨hr, rfl⟩
    · rw [a.result] at hr
      cases hr
      exact .failed hp ho hc a
    · exact .attempted hp ho hc (fun he => hr (by rw [a.result, he])) a
  | run budget ts resync =>
    obtain ⟨rfl, hp, ho, rfl⟩ := execRun_eq_next h
    exact .started hp ho
  | initMode mode =>
    obtain ⟨hp, ho, ⟨hw, rfl⟩ | ⟨sent, hw, rfl⟩⟩ := execInitMode_eq_next h
    · exact .inited hp ho hw
    · exact .initFailed hp ho hw
  | close =>
    obtain ⟨_, h⟩ := needTable_eq_next.mp h
    obtain ⟨u, hu, hf⟩ := andThen_eq_next.mp h
    by_cases ho : s.channelOpen = true
    · rw [chanClose_of ho] at hu
      cases hu
      rw [finish_eq_next.mp hf]
      exact .closed ho
    · rw [chanClose_refused (by simpa using ho)] at hu
      cases hu

/-- Everything the engine can do in one step. -/
inductive Stepped (s : State) : State → Prop where
  | idle (hp : s.phase ≠ .running) (he : s.engineReq = []) : Stepped s s
  | stopped {c} (he : s.engineReq = []) (hp : s.phase = .running) (hc : s.runConfig = some c)
      (hb : budgetMet c.budget s.valid = true) (ho : s.channelOpen = true) :
      Stepped s { s with stopReason := .budgetReached, channelOpen := false, events := s.events ++ [.close],
                         phase := .stopped, result := some (.run (summary s) .budgetReached) }
  | cancelled {c} (he : s.engineReq = []) (hp : s.phase = .running) (hc : s.runConfig = some c)
      (hb : budgetMet c.budget s.valid = false) (hl : s.cancel = true) (ho : s.channelOpen = true) :
      Stepped s { s with stopReason := .cancelled, channelOpen := false, events := s.events ++ [.close],
                         phase := .stopped, result := some (.run (summary s) .cancelled) }
  | issued {c} (he : s.engineReq = []) (hp : s.phase = .running) (hc : s.runConfig = some c)
      (hb : budgetMet c.budget s.valid = false) (hl : s.cancel = false) : Stepped s (issueRunStep s)
  | callerOp {i rest t} (he : s.engineReq = []) (hp : s.phase ≠ .running) (hi : i.issuer = .caller)
      (hd : decodeOp .caller s.program = .ok (i, rest)) (h : Operated { s with program := rest } i t) : Stepped s t
  | callerValue {i rest t} (he : s.engineReq = []) (hp : s.phase ≠ .running) (hi : i.issuer = .caller) (hl : s.program = [])
      (hr : s.requests = i :: rest) (h : Operated { s with requests := rest } i t) : Stepped s t
  | engineOp {i rest t} (he : s.engineReq ≠ []) (hd : decodeOp .engine s.engineReq = .ok (i, rest))
      (h : Operated { s with engineReq := [] } i t) : Stepped s t

theorem stepped_of_engineStep {s t : State} (h : engineStep s = .next t) : Stepped s t := by
  rcases engineStep_eq_next h with ⟨hf, rfl⟩ | ⟨hf, hb⟩ | ⟨i, s1, hf, ho⟩
  · by_cases he : t.engineReq = []
    · refine .idle (fun hp => ?_) he
      rw [fetch_running he hp] at hf; cases hf
    · rw [fetch_engine he] at hf; exact absurd hf (fetchFrom_ne_idle _ _ _)
  · obtain ⟨he, hp⟩ := fetch_eq_check hf
    obtain ⟨c, hc, ⟨h1, h2, rfl⟩ | ⟨h1, hl, h3, rfl⟩ | ⟨h1, hl, rfl⟩⟩ := betweenFrames_eq_next hb
    · exact .stopped he hp hc h1 h2
    · exact .cancelled he hp hc h1 hl h3
    · exact .issued he hp hc h1 hl
  · rcases fetch_eq_op hf with ⟨he, hp, rest, hd, rfl⟩ | ⟨he, hp, hi, hl, rest, hr, rfl⟩ | ⟨he, ⟨rest, hd⟩, rfl⟩
    · exact .callerOp he hp (decodeOp_caller_issuer hd) hd (operated_of_next ho)
    · exact .callerValue he hp hi hl hr (operated_of_next ho)
    · exact .engineOp he hd (operated_of_next ho)

/-- The inversion of a step: what the engine did, then the caller's turn. Every invariant's proof starts here. -/
theorem stepped_of_next {s t : State} (h : step s = .next t) : ∃ u, Stepped s u ∧ t = callerTurn u := by
  obtain ⟨u, hu, ht⟩ := thenCaller_eq_next.mp h
  exact ⟨u, stepped_of_engineStep hu, ht⟩

theorem coreRun_succ (M : Host.Core) (k : Nat) (s u : M.State) (h : M.step s = .next u) : M.run (k + 1) s = M.run k u := by
  simp [Host.Core.run, h]

/-- `k` steps after a step, for the machine of this package. -/
theorem run_succ {s u : State} (k : Nat) (h : step s = .next u) :
    Host.Core.run Sys2Proof.core (k + 1) s = Host.Core.run Sys2Proof.core k u :=
  coreRun_succ Sys2Proof.core k s u h

theorem run_zero (s : State) : Host.Core.run Sys2Proof.core 0 s = .next s := rfl

end Sys2Proof.Machine
end

