-- ==== Sys2Proof/Tests/Slice0.lean ====
section
/-! SUPPORT. Tests: ill-formed operations refused, words written out from the spec's encoding, one step of each operation
against the spec's vectors (spec/95_test_vectors.md), and for every statement with hypotheses a witness that meets them. -/

namespace Sys2Proof.Tests

/- One theorem at a time: checked all at once, the kernel evaluations below keep dozens of threads waiting. -/
set_option Elab.async false

open Sys2Proof Sys2Proof.Machine Sys2Proof.Safety

/-! ### Helpers -/

/-- The answer is a next state with the property. -/
def nextWith (p : State → Bool) : Answer → Bool
  | .next t => p t
  | .fault _ => false
  | .refused _ => false

theorem exists_of_nextWith {p : State → Bool} {o : Answer} (h : nextWith p o = true) : ∃ t, o = .next t ∧ p t = true := by
  cases o with
  | next t => exact ⟨t, rfl, h⟩
  | fault r => cases h
  | refused r => cases h

/-- The answer is a next state with this result, the trace grown by these entries, and this cursor. -/
def gives (r : OpResult) (es : List Event) (cursor : Nat) (o : Answer) : Bool :=
  nextWith (fun t => decide (t.result = some r ∧ t.events = es ∧ t.cursor = cursor)) o

/-- A run without budget and timestamps, and one with both. -/
def plain : RunConfig := ⟨none, false, .wholeFrameDiscard⟩
def stamped (n : Nat) : RunConfig := ⟨some n, true, .wholeFrameDiscard⟩

/-- A running engine over a listed stream, with its channel's answers ready; the clock answers 7 next, and the caller keeps
CANCEL at 0 for six steps. -/
def runState (c : RunConfig) (bytes : List Byte) (draws : List ReadDraw) : State :=
  { State.reset with
    phase := .running, runConfig := some c, input := bytes, readDraws := draws, clockDraws := [7],
    cancelInputs := List.replicate 6 false }

/-- The same with the attempt issued. -/
def issuedState (c : RunConfig) (bytes : List Byte) (draws : List ReadDraw) : State :=
  { runState c bytes draws with engineReq := [0x06] }

/-- A caller's image at reset, the channel's answer to a write ready. -/
def callState (image : List Byte) (draws : List WriteDraw) : State :=
  { State.reset with program := image, writeDraws := draws }

/-- A caller's request by value at reset. -/
def valueState (i : Instr) : State := { State.reset with requests := [i], writeDraws := [.ok] }

/-- A READY engine. -/
def readyState (image : List Byte) : State := { State.reset with phase := .ready, program := image }

/-- An engine stopped by its caller. -/
def stoppedState (image : List Byte) : State :=
  { State.reset with
    phase := .stopped, stopReason := .cancelled, channelOpen := false, events := [.close], program := image }

theorem t07_admitted : isPermutation Config.t07 = true := by decide +kernel

theorem reset_admitted : Admitted State.reset := t07_admitted

theorem attempting_runState (c : RunConfig) (bytes : List Byte) (draws : List ReadDraw) :
    Attempting (runState c bytes draws) c := ⟨t07_admitted, rfl, rfl, rfl⟩

/-! ### Ill-formed operations (spec/30_encoding.md R92, R94; spec/40_crc8.md R102; spec/42_stream_sync.md R157) -/

theorem test_wellFormed_length : (Instr.crcCompute [0x54, 0x64] 3).wellFormed = false := by decide
theorem test_wellFormed_resync : (Instr.run none true .headerHunt).wellFormed = false := by decide
theorem test_inImage_data : (Instr.crcCompute (List.replicate 256 0x00) 0).inImage = false := by decide +kernel
theorem test_inImage_budget : (Instr.run (some 4294967296) false .wholeFrameDiscard).inImage = false := by decide
theorem test_wellFormed_edge : (Instr.crcCompute [0x54, 0x64] 2).wellFormed = true := by decide

/-! ### Words written out from R94 (vectors L2-E) -/

theorem test_decode_crcStep : decodeOp .caller [0x01, 0x00, 0x54] = .ok (.crcStep 0x00 0x54, []) := by decide
theorem test_decode_crcCompute :
    decodeOp .caller [0x02, 0x03, 0x02, 0x54, 0x64, 0x00, 0xAA] = .ok (.crcCompute [0x54, 0x64, 0x00] 2, [0xAA]) := by decide
theorem test_decode_decode : decodeOp .caller [0x03, 0x54, 0x64, 0x00, 0x2E] = .ok (.decode 0x54 0x64 0x00 0x2E, []) := by decide
theorem test_decode_classify : decodeOp .caller [0x04, 0x10, 0x27] = .ok (.classify 0x2710, []) := by decide
theorem test_decode_nextFrame : decodeOp .engine [0x05] = .ok (.nextFrame, []) := by decide
theorem test_decode_runStep : decodeOp .engine [0x06] = .ok (.runStep, []) := by decide
theorem test_decode_run :
    decodeOp .caller [0x07, 0x01, 0x04, 0x03, 0x02, 0x01] = .ok (.run (some 0x01020304) false .wholeFrameDiscard, []) := by decide
theorem test_decode_run_stamped :
    decodeOp .caller [0x07, 0x02, 0x00, 0x00, 0x00, 0x00] = .ok (.run none true .wholeFrameDiscard, []) := by decide
theorem test_decode_initMode : decodeOp .caller [0x08, 0x01] = .ok (.initMode .text, []) := by decide
theorem test_decode_close : decodeOp .engine [0x09] = .ok (.close, []) := by decide
theorem test_refuse_length : decodeOp .caller [0x02, 0x02, 0x03, 0x54, 0x64] = .error .lengthBeyondData := by decide
theorem test_refuse_budget : decodeOp .caller [0x07, 0x00, 0x05, 0x00, 0x00, 0x00] = .error (.badOperand 0x07) := by decide
theorem test_refuse_flags : decodeOp .caller [0x07, 0x04, 0x00, 0x00, 0x00, 0x00] = .error (.badOperand 0x07) := by decide
theorem test_refuse_mode : decodeOp .caller [0x08, 0x02] = .error (.badOperand 0x08) := by decide
theorem test_refuse_internal : decodeOp .caller [0x06] = .error (.engineInternal 0x06) := by decide
theorem test_refuse_unused : decodeOp .engine [0x0A] = .error (.unusedCode 0x0A) := by decide
theorem test_refuse_truncated : decodeOp .caller [0x03, 0x54, 0x64] = .error .truncated := by decide
theorem test_encode_run :
    encode (.run (some 2) true .wholeFrameDiscard) = [0x07, 0x03, 0x02, 0x00, 0x00, 0x00] := by decide
theorem test_tableWord : decodeTableWord 24 0x540001 = some (.crcStep 0x00 0x54) := by decide +kernel
theorem test_fetchWord : gives (.crc 0xAB) [] 0 (step (State.reset.withFetchWord 24 0x540001)) = true := by decide +kernel

/-! ### One step of each operation -/

/-- L2-C1. -/
theorem test_crcStep : gives (.crc 0xF2) [] 0 (exec (.crcStep 0x12 0x34) State.reset) = true := by decide +kernel
/-- L2-C2: byte 3 is not read. -/
theorem test_crcCompute : gives (.crc 0x2E) [] 0 (exec (.crcCompute [0x54, 0x64, 0x00, 0x2E] 3) State.reset) = true := by
  decide +kernel
/-- L2-C2: "123456789". -/
theorem test_crcCompute_check :
    gives (.crc 0xF4) [] 0
      (exec (.crcCompute [0x31, 0x32, 0x33, 0x34, 0x35, 0x36, 0x37, 0x38, 0x39] 9) State.reset) = true := by decide +kernel
/-- L2-D1: the high byte is byte 2. -/
theorem test_decode_valid :
    gives (.decoded (.ok ⟨0x04D2, .measurement 1234, none⟩)) [] 0 (exec (.decode 0x54 0xD2 0x04 0x03) State.reset) = true := by
  decide +kernel
/-- L2-D1: the CRC is valid; the header wins. -/
theorem test_decode_header :
    gives (.decoded (.err .headerMismatch)) [] 0 (exec (.decode 0x55 0x64 0x00 0x45) State.reset) = true := by decide +kernel
/-- L2-D2. -/
theorem test_classify_high :
    gives (.classified (.measurement 32768)) [] 0 (exec (.classify 0x8000) State.reset) = true := by decide +kernel
theorem test_classify_top :
    gives (.classified .positiveInfinity) [] 0 (exec (.classify 0xFFFF) State.reset) = true := by decide +kernel
/-- L2-S2a: three bytes are dropped. -/
theorem test_nextFrame_short :
    gives (.frame (.err .timeout)) [] 3 (exec .nextFrame (runState plain [0x54, 0x64, 0x00, 0x2E] [.bytes 3])) = true := by
  decide +kernel
/-- L2-S1b: bytes are not inspected. -/
theorem test_nextFrame_full :
    gives (.frame (.ok ⟨0x00, 0x00, 0x00, 0x00⟩)) [] 4
      (exec .nextFrame (runState plain [0x00, 0x00, 0x00, 0x00] [.bytes 4])) = true := by decide +kernel
/-- Program P2, attempt 4, with the clock at 7. -/
theorem test_runStep_valid :
    gives (.attempt (.valid ⟨0x2710, .measurement 10000, some 7⟩)) [.attempt (.valid ⟨0x2710, .measurement 10000, some 7⟩)] 4
      (exec .runStep (runState (stamped 2) [0x54, 0x10, 0x27, 0x2D] [.bytes 4])) = true := by decide +kernel
/-- L2-R7: a failed read within RUN ends it. -/
theorem test_runStep_fatal :
    gives (.run ⟨0, 0, 0, 0⟩ .transportFailure) [.attempt .transportFailure, .close] 0
      (step (issuedState plain [] [.fail])) = true := by decide +kernel
/-- Program P1: RUN's start latches the budget. -/
theorem test_run_latches :
    nextWith (fun t => decide (t.phase = .running ∧ t.runConfig = some ⟨some 3, false, .wholeFrameDiscard⟩))
      (step (readyState [0x07, 0x01, 0x03, 0x00, 0x00, 0x00])) = true := by decide +kernel
/-- R92: a budget of 2^32, which no image holds, requested by value. -/
theorem test_run_by_value :
    nextWith (fun t => decide (t.phase = .running ∧ t.runConfig = some ⟨some 4294967296, false, .wholeFrameDiscard⟩))
      (step { valueState (.run (some 4294967296) false .wholeFrameDiscard) with phase := .ready }) = true := by decide +kernel
/-- R92: 257 data bytes by value; the leading zero bytes change nothing (R102). -/
theorem test_crcCompute_by_value :
    gives (.crc 0xAB) [] 0 (step (valueState (.crcCompute (List.replicate 256 0x00 ++ [0x54]) 257))) = true := by decide +kernel
/-- L2-R2: a budget of 0 ends the run with no read. -/
theorem test_run_zero :
    gives (.run ⟨0, 0, 0, 0⟩ .budgetReached) [.close] 0 (step (runState (stamped 0) [] [])) = true := by decide +kernel
/-- L2-R8: CANCEL set before RUN is held and seen by RUN's first check. -/
theorem test_run_cancelled :
    gives (.run ⟨0, 0, 0, 0⟩ .cancelled) [.close] 0 (step { runState plain [] [] with cancel := true }) = true := by
  decide +kernel
/-- L2-R8: the level the caller sets shows in C3 before RUN. -/
theorem test_cancel_register :
    nextWith (fun t => decide (readReg .c3 t = .nat 1))
      (step { readyState [0x01, 0x00, 0x54] with cancelInputs := [true] }) = true := by decide +kernel
/-- L2-I1. -/
theorem test_initMode_ok :
    gives (.init (.ok ())) [.write [0x00, 0x11, 0x02, 0x4C] .ok] 0 (step (callState [0x08, 0x00] [.ok])) = true := by
  decide +kernel
/-- L2-I3. -/
theorem test_initMode_fail :
    gives (.init (.err .writeFailed)) [.write [0x00, 0x11, 0x02, 0x4C] .fail, .close] 0
      (step (callState [0x08, 0x00] [.fail 0])) = true := by decide +kernel
/-- spec/43_pipeline.md R176. -/
theorem test_close : gives .closed [.close] 0 (exec .close State.reset) = true := by decide +kernel

/-! ### Witnesses: the CRC-8 engine -/

theorem witness_CrcStepIsOneTableRead : Admitted State.reset := reset_admitted

/-- Both bounds of `len`, the first refused `len`, and the fullest image. -/
theorem witness_CrcComputeFoldsTheFirstBytes :
    Admitted State.reset ∧ 3 ≤ ([0x54, 0x64, 0x00] : List Byte).length ∧ 0 ≤ ([] : List Byte).length ∧
    ([0x54, 0x64] : List Byte).length < 3 ∧
    (List.replicate 255 (0xFF : Byte)).length = (0xFF : Byte).toNat ∧ (0xFF : Byte).toNat ≤ (0xFF : Byte).toNat :=
  ⟨reset_admitted, by decide, by decide, by decide, List.length_replicate, by decide⟩

theorem witness_CrcDependsOnItsBytesAlone :
    Admitted State.reset ∧ State.reset.params.crcTable = (stoppedState [0x01]).params.crcTable ∧
    3 ≤ ([0x54, 0x64, 0x00, 0x2E] : List Byte).length ∧ 3 ≤ ([0x54, 0x64, 0x00] : List Byte).length ∧
    ([0x54, 0x64, 0x00, 0x2E] : List Byte).take 3 = ([0x54, 0x64, 0x00] : List Byte).take 3 :=
  ⟨reset_admitted, rfl, by decide, by decide, by decide⟩

theorem witness_CrcDetectsEverySingleBitFlip :
    2 < ([0x54, 0x64, 0x00] : List Byte).length ∧ Admitted State.reset ∧ 7 < 8 := ⟨by decide, reset_admitted, by decide⟩

theorem witness_CrcResidueIsTheFirstEntry : Admitted State.reset := reset_admitted

theorem witness_DefaultCrcIsTheBitwiseCrc : State.reset.params.crcTable = Config.t07 := rfl

/-- A table with two equal entries (L2-C4). -/
theorem witness_OnlyPermutationTablesAreAdmitted :
    ¬ Admitted { State.reset with params := { Config.params with crcTable := Config.t07.set 1 0x00 } } := by
  unfold Admitted; decide +kernel

theorem witness_ModeCommandEndsInItsChecksum : State.reset.params.crcTable = Config.t07 := rfl

/-! ### Witnesses: the frame decoder -/

theorem witness_DecodeChecksHeaderThenChecksum :
    Admitted State.reset ∧ (0x55 : Byte) ≠ 0x54 ∧ crcOf State.reset.params.crcTable [0x54, 0x64, 0x00] ≠ 0x2F ∧
    crcOf State.reset.params.crcTable [0x54, 0x64, 0x00] = 0x2E :=
  ⟨reset_admitted, by decide, by decide +kernel, by decide +kernel⟩

theorem witness_ClassifyFollowsTheCodeSpace :
    Admitted State.reset ∧ 2 ≤ (0x0002 : Code16).toNat ∧ (0x0002 : Code16).toNat ≤ 65534 ∧
    2 ≤ (0xFFFE : Code16).toNat ∧ (0xFFFE : Code16).toNat ≤ 65534 :=
  ⟨reset_admitted, by decide, by decide, by decide, by decide⟩

theorem witness_DecodeRoundTripsEveryCode :
    Admitted State.reset ∧ ((0x00 : Byte) ++ (0x02 : Byte) : Code16) ≠ 0x0000 ∧
    ((0x00 : Byte) ++ (0x02 : Byte) : Code16) ≠ 0x0001 ∧ ((0x00 : Byte) ++ (0x02 : Byte) : Code16) ≠ 0xFFFF ∧
    (0xA4 : Byte) ≠ 0xA5 := ⟨reset_admitted, by decide, by decide, by decide, by decide⟩

theorem witness_DecodeRejectsEverySingleBitError :
    Admitted State.reset ∧ crcOf State.reset.params.crcTable [0x54, 0xFF, 0xFF] = 0xAB ∧ 0 < 8 ∧ 7 < 8 :=
  ⟨reset_admitted, by decide +kernel, by decide, by decide⟩

/-! ### Witnesses: the channel and the synchronizer -/

theorem witness_ReadsTakeConsecutiveParts :
    4 ≤ (runState plain [0x54, 0x64, 0x00, 0x2E] []).input.length ∧ State.reset.sourceEnds = false ∧
    { State.reset with sourceEnds := true }.sourceEnds = true := by decide

theorem witness_NextFrameFollowsTheRead_full :
    Admitted (runState plain [0x54, 0x64, 0x00, 0x2E] [.bytes 4]) ∧
    (runState plain [0x54, 0x64, 0x00, 0x2E] [.bytes 4]).phase = .running ∧
    (runState plain [0x54, 0x64, 0x00, 0x2E] [.bytes 4]).channelOpen = true ∧
    readDraw (runState plain [0x54, 0x64, 0x00, 0x2E] [.bytes 4]) = .bytes 4 ∧
    streamTake (min 4 4) (runState plain [0x54, 0x64, 0x00, 0x2E] [.bytes 4]) = [0x54, 0x64, 0x00, 0x2E] :=
  ⟨reset_admitted, rfl, rfl, rfl, by decide +kernel⟩

theorem witness_NextFrameFollowsTheRead_short :
    Admitted (runState plain [0x54, 0x64, 0x00, 0x2E] [.bytes 3]) ∧
    (runState plain [0x54, 0x64, 0x00, 0x2E] [.bytes 3]).phase = .running ∧
    (runState plain [0x54, 0x64, 0x00, 0x2E] [.bytes 3]).channelOpen = true ∧
    readDraw (runState plain [0x54, 0x64, 0x00, 0x2E] [.bytes 3]) = .bytes 3 ∧
    (streamTake (min 3 4) (runState plain [0x54, 0x64, 0x00, 0x2E] [.bytes 3])).length = 3 ∧ 3 < 4 ∧
    (streamTake (min 0 4) (runState plain [0x54] [.bytes 0])).length = 0 :=
  ⟨reset_admitted, rfl, rfl, rfl, by decide +kernel, by decide, by decide +kernel⟩

theorem witness_NextFrameFollowsTheRead_failed :
    Admitted (runState plain [] [.fail]) ∧ (runState plain [] [.fail]).phase = .running ∧
    (runState plain [] [.fail]).channelOpen = true ∧ readDraw (runState plain [] [.fail]) = .fail :=
  ⟨reset_admitted, rfl, rfl, rfl⟩

theorem witness_EveryFullWindowTakesFourBytes :
    (∃ t, exec .runStep (runState plain [0x54, 0x64, 0x00, 0x2F] [.bytes 4]) = .next t ∧
      decide (t.result = some (.attempt .checksumFailed)) = true) ∧
    (∃ t, exec .runStep (runState plain [0x54, 0x64] [.bytes 2]) = .next t ∧
      decide (t.result = some (.attempt .timeout)) = true) ∧
    (∃ t, exec .runStep (runState plain [] [.fail]) = .next t ∧
      decide (t.result = some (.attempt .transportFailure)) = true) :=
  ⟨exists_of_nextWith (by decide +kernel), exists_of_nextWith (by decide +kernel), exists_of_nextWith (by decide +kernel)⟩

/-- Program P7: one spurious byte, so the misalignment is 3 from byte 1 on; the short read of one byte ends it. -/
theorem witness_MisalignmentPersists :
    (∃ t, step { issuedState plain [0x2E, 0x54] [.bytes 1] with cursor := 4 } = .next t ∧
      decide (t.timeouts = 0 + 1 ∧ (t.cursor - 1) % 4 = 0) = true) ∧
    (∃ t, step { issuedState plain [0x2E, 0x54, 0xE8, 0x03] [.bytes 4] with cursor := 4 } = .next t ∧
      decide (t.timeouts ≤ 0 ∧ (t.cursor - 1) % 4 = 3) = true) ∧
    1 ≤ 4 ∧ (4 - 1) % 4 = 3 ∧ (issuedState plain [] []).engineReq = encode .runStep :=
  ⟨exists_of_nextWith (by decide +kernel), exists_of_nextWith (by decide +kernel), by decide, by decide, rfl⟩

/-! ### Witnesses: the pipeline -/

theorem readyState_lifecycle (image : List Byte) : Lifecycle (readyState image) := by
  constructor <;> simp [readyState, State.reset, Config.params, t07_admitted]

theorem witness_RunLatchesAndClears :
    Admitted (readyState []) ∧ (readyState []).phase = .ready ∧ (readyState []).channelOpen = true ∧
    Lifecycle (readyState []) := ⟨reset_admitted, rfl, rfl, readyState_lifecycle []⟩

/-- With timestamps and without; the last count a width of 1 bit admits. -/
theorem witness_RunStepDeliversValidWindow :
    (∀ c, Attempting (runState c [0x54, 0x64, 0x00, 0x2E] [.bytes 4]) c) ∧ (stamped 1).timestamps = true ∧
    plain.timestamps = false ∧ readDraw (runState plain [0x54, 0x64, 0x00, 0x2E] [.bytes 4]) = .bytes 4 ∧
    streamTake (min 4 4) (runState plain [0x54, 0x64, 0x00, 0x2E] [.bytes 4]) = [0x54, 0x64, 0x00, 0x2E] ∧
    crcOf State.reset.params.crcTable [0x54, 0x64, 0x00] = 0x2E ∧
    counterFits State.reset.params.counterWidth State.reset.valid = true ∧ counterFits (some 1) 0 = true :=
  ⟨fun c => attempting_runState c _ _, rfl, rfl, rfl, by decide +kernel, by decide +kernel, rfl, by decide⟩

theorem witness_RunStepCountsRejectedWindow :
    Attempting (runState plain [0x55, 0x64, 0x00, 0x45] [.bytes 4]) plain ∧
    readDraw (runState plain [0x55, 0x64, 0x00, 0x45] [.bytes 4]) = .bytes 4 ∧
    streamTake (min 4 4) (runState plain [0x55, 0x64, 0x00, 0x45] [.bytes 4]) = [0x55, 0x64, 0x00, 0x45] ∧
    (0x55 : Byte) ≠ 0x54 ∧
    Attempting (runState plain [0x54, 0x64, 0x00, 0x2F] [.bytes 4]) plain ∧
    readDraw (runState plain [0x54, 0x64, 0x00, 0x2F] [.bytes 4]) = .bytes 4 ∧
    streamTake (min 4 4) (runState plain [0x54, 0x64, 0x00, 0x2F] [.bytes 4]) = [0x54, 0x64, 0x00, 0x2F] ∧
    crcOf State.reset.params.crcTable [0x54, 0x64, 0x00] ≠ 0x2F ∧ counterFits none 0 = true :=
  ⟨attempting_runState _ _ _, rfl, by decide +kernel, by decide, attempting_runState _ _ _, rfl, by decide +kernel,
    by decide +kernel, rfl⟩

theorem witness_RunStepCountsReadErrors :
    Attempting (runState plain [0x54, 0x10, 0x00] [.bytes 3]) plain ∧
    readDraw (runState plain [0x54, 0x10, 0x00] [.bytes 3]) = .bytes 3 ∧
    (streamTake (min 3 4) (runState plain [0x54, 0x10, 0x00] [.bytes 3])).length = 3 ∧
    (streamTake (min 0 4) (runState plain [] [.bytes 0])).length = 0 ∧
    Attempting (runState plain [] [.fail]) plain ∧ readDraw (runState plain [] [.fail]) = .fail :=
  ⟨attempting_runState _ _ _, rfl, by decide +kernel, by decide +kernel, attempting_runState _ _ _, rfl⟩

/-- A counter of 1 bit that holds 1. -/
def fullCounters (bytes : List Byte) (draws : List ReadDraw) : State :=
  { runState plain bytes draws with
    params := { Config.params with counterWidth := some 1 }, valid := 1, headerMismatches := 1, checksumFailures := 1,
    timeouts := 1 }

theorem witness_CounterOverflowFaults :
    (∀ bytes draws, Attempting (fullCounters bytes draws) plain ∧ (fullCounters bytes draws).params.counterWidth = some 1 ∧
      (fullCounters bytes draws).valid + 1 > 2 ^ 1 - 1 ∧ (fullCounters bytes draws).headerMismatches + 1 > 2 ^ 1 - 1 ∧
      (fullCounters bytes draws).checksumFailures + 1 > 2 ^ 1 - 1 ∧ (fullCounters bytes draws).timeouts + 1 > 2 ^ 1 - 1) ∧
    streamTake (min 4 4) (fullCounters [0x54, 0x64, 0x00, 0x2E] [.bytes 4]) = [0x54, 0x64, 0x00, 0x2E] ∧
    (streamTake (min 3 4) (fullCounters [0x54, 0x64, 0x00] [.bytes 3])).length < 4 ∧
    (runState plain [] [.fail]).params.counterWidth = none :=
  ⟨fun _ _ => ⟨⟨t07_admitted, rfl, rfl, rfl⟩, rfl, by simp [fullCounters], by simp [fullCounters],
    by simp [fullCounters], by simp [fullCounters]⟩, by decide +kernel,
    by decide +kernel, rfl⟩

theorem witness_EachAttemptIsAccountedOnce :
    (issuedState plain [] []).engineReq = encode .runStep ∧
    (∃ t, step (issuedState (stamped 1) [0x54, 0x64, 0x00, 0x2E] [.bytes 4]) = .next t ∧ decide (t.valid = 1) = true) ∧
    (∃ t, step (issuedState plain [0x55, 0x64, 0x00, 0x45] [.bytes 4]) = .next t ∧ decide (t.headerMismatches = 1) = true) ∧
    (∃ t, step (issuedState plain [0x54, 0x64, 0x00, 0x2F] [.bytes 4]) = .next t ∧ decide (t.checksumFailures = 1) = true) ∧
    (∃ t, step (issuedState plain [0x54] [.bytes 1]) = .next t ∧ decide (t.timeouts = 1) = true) ∧
    (∃ t, step (issuedState plain [] [.fail]) = .next t ∧ decide (t.stopReason = .transportFailure) = true) :=
  ⟨rfl, exists_of_nextWith (by decide +kernel), exists_of_nextWith (by decide +kernel),
    exists_of_nextWith (by decide +kernel), exists_of_nextWith (by decide +kernel), exists_of_nextWith (by decide +kernel)⟩

/-- A budget just met, one not yet met, and both levels of CANCEL. -/
theorem witness_BudgetIsTestedBeforeCancel :
    (runState (stamped 0) [] []).engineReq = [] ∧ (runState (stamped 0) [] []).phase = .running ∧
    (runState (stamped 0) [] []).channelOpen = true ∧ (runState (stamped 0) [] []).runConfig = some (stamped 0) ∧
    (stamped 0).budget = some 0 ∧ 0 ≤ (runState (stamped 0) [] []).valid ∧
    (∀ n, (stamped 1).budget = some n → (runState (stamped 1) [] []).valid < n) ∧
    (runState (stamped 1) [] []).cancel = false ∧ { runState (stamped 1) [] [] with cancel := true }.cancel = true :=
  ⟨rfl, rfl, rfl, rfl, rfl, by decide, fun n h => by cases h; decide, rfl, rfl⟩

theorem witness_TransportFailureEndsTheRun :
    Attempting (issuedState plain [] [.fail]) plain ∧ (issuedState plain [] [.fail]).engineReq = encode .runStep ∧
    readDraw (issuedState plain [] [.fail]) = .fail := ⟨⟨t07_admitted, rfl, rfl, rfl⟩, rfl, rfl⟩

theorem witness_CloseReleasesTheChannel :
    Admitted State.reset ∧ State.reset.channelOpen = true ∧ Admitted (stoppedState []) ∧
    (stoppedState []).channelOpen = false := ⟨reset_admitted, rfl, reset_admitted, rfl⟩

/-! ### Witnesses: the mode initializer -/

theorem witness_InitModeSendsTheCommand :
    Admitted (callState [] [.ok]) ∧ (callState [] [.ok]).phase = .reset ∧ (callState [] [.ok]).channelOpen = true ∧
    writeDraw (callState [] [.ok]) = .ok := ⟨reset_admitted, rfl, rfl, rfl⟩

theorem witness_FailedInitEndsTheEngine :
    Admitted (callState [] [.fail 3]) ∧ (callState [] [.fail 3]).phase = .reset ∧
    (callState [] [.fail 3]).channelOpen = true ∧ writeDraw (callState [] [.fail 3]) = .fail 3 ∧
    writeDraw (callState [] [.fail 0]) = .fail 0 := ⟨reset_admitted, rfl, rfl, rfl, rfl⟩

/-- A step after the failure, of an engine with one more request and of one with none. -/
theorem witness_FailedInitEndsTheEngine_later :
    (∃ u, Host.Core.run Sys2Proof.core 1 (stoppedState [0x01, 0x00, 0x54]) = .next u ∧ decide (u.phase = .stopped) = true) ∧
    (∃ u, Host.Core.run Sys2Proof.core 1 (stoppedState []) = .next u ∧ decide (u.phase = .stopped) = true) :=
  ⟨exists_of_nextWith (by decide +kernel), exists_of_nextWith (by decide +kernel)⟩

theorem witness_BothModesActAlike : State.reset.params.textModeCommand = State.reset.params.binaryModeCommand := rfl

/-! ### Witnesses: requests -/

theorem witness_DecodeUndoesEncode :
    (Instr.run (some 4294967295) true .wholeFrameDiscard).wellFormed = true ∧
    (Instr.run (some 4294967295) true .wholeFrameDiscard).inImage = true ∧
    (Instr.crcCompute (List.replicate 255 0x00) 255).wellFormed = true ∧
    (Instr.crcCompute (List.replicate 255 0x00) 255).inImage = true := by decide +kernel

theorem witness_DecodeAcceptsOnlyEncodings : decodeOp .caller [0x04, 0xFF, 0xFF, 0x05] = .ok (.classify 0xFFFF, [0x05]) := by
  decide

theorem witness_UnusedAndInternalCodesAreRefused :
    0x0A ≤ (0x0A : Byte).toNat ∧ 0x0A ≤ (0xFF : Byte).toNat ∧
    (callState [0x00] []).engineReq = [] ∧ (callState [0x00] []).phase ≠ .running ∧ (callState [0x00] []).program ≠ [] ∧
    decodeOp .caller (callState [0x00] []).program = .error (.unusedCode 0x00) := by decide

theorem witness_UnusedAndInternalCodesAreRefused_value :
    ∀ i, (valueState i).engineReq = [] ∧ (valueState i).phase ≠ .running ∧ (valueState i).program = [] ∧
      (valueState i).requests = i :: [] := fun _ => ⟨rfl, by simp [valueState, State.reset], rfl, rfl⟩

theorem witness_StepRunsTheCallersRequest :
    (callState [0x04, 0xFF, 0xFF] []).engineReq = [] ∧ (callState [0x04, 0xFF, 0xFF] []).phase ≠ .running ∧
    decodeOp .caller (callState [0x04, 0xFF, 0xFF] []).program = .ok (.classify 0xFFFF, []) ∧
    State.reset.engineReq = [] ∧ State.reset.phase ≠ .running ∧ State.reset.program = [] ∧ State.reset.requests = [] := by decide

theorem witness_StepRunsTheCallersRequest_value :
    (valueState (.classify 0xFFFF)).engineReq = [] ∧ (valueState (.classify 0xFFFF)).phase ≠ .running ∧
    (valueState (.classify 0xFFFF)).program = [] ∧ (valueState (.classify 0xFFFF)).requests = .classify 0xFFFF :: [] ∧
    (Instr.classify 0xFFFF).issuer = .caller := by decide

theorem witness_StepRunsTheEnginesRequest :
    (issuedState plain [0x54] [.bytes 1]).engineReq ≠ [] ∧
    decodeOp .engine (issuedState plain [0x54] [.bytes 1]).engineReq = .ok (.runStep, []) ∧
    (∃ t, exec .runStep { issuedState plain [0x54] [.bytes 1] with engineReq := [] } = .next t ∧
      decide (t.result ≠ some (.attempt .transportFailure)) = true) ∧
    (∃ t, exec .runStep { issuedState plain [] [.fail] with engineReq := [] } = .next t ∧
      decide (t.result = some (.attempt .transportFailure)) = true) ∧
    decodeOp .engine [0x05] = .ok (.nextFrame, []) ∧ Instr.nextFrame ≠ .runStep :=
  ⟨by decide, by decide, exists_of_nextWith (by decide +kernel), exists_of_nextWith (by decide +kernel), by decide, by decide⟩

theorem witness_StepRunsTheEnginesRequest_stops :
    exec .runStep { callState [] [] with engineReq := [] } = .refused (.wrongPhase .running) ∧
    exec .runStep { fullCounters [] [.bytes 0] with engineReq := [] } = .fault (.counterOverflow .timeouts) := by
  constructor
  · show execRunStep _ = _
    unfold execRunStep
    rw [needTable_of (by exact t07_admitted), needPhase_refused (by decide)]
  · refine (execRunStep_of (c := plain) t07_admitted rfl rfl rfl).trans ?_
    rw [attempt_short (k := 0) rfl (by decide +kernel)]
    exact endAttempt_overflow (c := .timeouts) rfl (by decide +kernel)

theorem witness_OutOfOrderRequestsAreRefused :
    Admitted (readyState []) ∧ (readyState []).phase ≠ .reset ∧ Admitted State.reset ∧ State.reset.phase ≠ .ready ∧
    State.reset.phase ≠ .running ∧ Admitted (stoppedState []) ∧ (stoppedState []).phase ≠ .ready :=
  ⟨reset_admitted, by decide, reset_admitted, by decide, by decide, reset_admitted, by decide⟩

/-! ### Witnesses: the whole machine -/

/-- Mid-run, the attempt issued, a valid window ahead, one of two samples delivered. -/
def midRun : State :=
  { issuedState (stamped 2) [0x54, 0x64, 0x00, 0x2E] [.bytes 4] with
    cursor := 4, valid := 1, sink := [⟨0x0064, .measurement 100, some 3⟩], clockNow := 5, program := [0x01, 0x00, 0x54],
    events := [.write [0x00, 0x11, 0x02, 0x4C] .ok, .attempt (.valid ⟨0x0064, .measurement 100, some 3⟩)] }

theorem midRun_lifecycle : Lifecycle midRun := by
  constructor <;> simp [midRun, issuedState, runState, State.reset, Config.params, t07_admitted, stamped, encode, opCode,
    operandBytes]

theorem midRun_goes_on : ∃ t, step midRun = .next t ∧
    decide (t.sink = [⟨0x0064, .measurement 100, some 3⟩, ⟨0x0064, .measurement 100, some 12⟩] ∧ t.cursor = 8) = true :=
  exists_of_nextWith (by decide +kernel)

theorem midRun_accounts : Accounts midRun := by
  constructor
  · decide
  · decide
  · decide
  · decide
  · decide
  · intro x hx
    simp [midRun] at hx
    subst hx
    decide
  · decide
  · decide
  · decide
  · decide

theorem witness_StepKeepsTheLifecycle : Lifecycle midRun ∧ ∃ t, step midRun = .next t :=
  ⟨midRun_lifecycle, midRun_goes_on.imp fun _ h => h.1⟩

theorem witness_StepKeepsTheAccounts : Lifecycle midRun ∧ Accounts midRun ∧ ∃ t, step midRun = .next t :=
  ⟨midRun_lifecycle, midRun_accounts, midRun_goes_on.imp fun _ h => h.1⟩

theorem witness_StepStaysWithinBudget : Lifecycle midRun ∧ WithinBudget midRun ∧ ∃ t, step midRun = .next t := by
  refine ⟨midRun_lifecycle, ?_, midRun_goes_on.imp fun _ h => h.1⟩
  intro c n hc hn
  cases hc; cases hn
  exact ⟨by decide, fun _ => by decide⟩

theorem witness_StepKeepsTimestampsInOrder : Lifecycle midRun ∧ Timestamped midRun ∧ ∃ t, step midRun = .next t := by
  refine ⟨midRun_lifecycle, ⟨?_, by decide, by decide⟩, midRun_goes_on.imp fun _ h => h.1⟩
  intro c hc x hx
  cases hc
  simp [midRun] at hx
  subst hx
  rfl

theorem witness_StepDeliversOnlyCheckedFrames :
    (∃ t, exec (.decode 0x54 0x64 0x00 0x2E) State.reset = .next t ∧
      decide (t.result = some (.decoded (.ok ⟨0x0064, .measurement 100, none⟩))) = true) ∧
    ∃ t, step midRun = .next t ∧ decide (t.sink ≠ midRun.sink) = true :=
  ⟨exists_of_nextWith (by decide +kernel), exists_of_nextWith (by decide +kernel)⟩

theorem witness_PhaseMovesOnlyAsListed :
    (∃ t, step (callState [0x08, 0x00] [.ok]) = .next t ∧ decide (t.phase = .ready) = true) ∧
    (∃ t, step (callState [0x08, 0x00] [.fail 0]) = .next t ∧ decide (t.phase = .stopped) = true) ∧
    (∃ t, step (readyState [0x07, 0x00, 0x00, 0x00, 0x00, 0x00]) = .next t ∧ decide (t.phase = .running) = true) ∧
    (∃ t, step (runState (stamped 0) [] []) = .next t ∧ decide (t.phase = .stopped) = true) ∧
    (∃ t, step midRun = .next t ∧ decide (t.phase = .running) = true) :=
  ⟨exists_of_nextWith (by decide +kernel), exists_of_nextWith (by decide +kernel), exists_of_nextWith (by decide +kernel),
    exists_of_nextWith (by decide +kernel), exists_of_nextWith (by decide +kernel)⟩

theorem stoppedState_lifecycle (image : List Byte) : Lifecycle (stoppedState image) := by
  constructor <;> simp [stoppedState, State.reset, Config.params, t07_admitted]

theorem witness_StoppedEngineIsFrozen :
    Lifecycle (stoppedState [0x01, 0x00, 0x54]) ∧ (stoppedState [0x01, 0x00, 0x54]).phase = .stopped ∧
    ∃ t, step (stoppedState [0x01, 0x00, 0x54]) = .next t ∧ decide (t.result = some (.crc 0xAB)) = true :=
  ⟨stoppedState_lifecycle _, rfl, exists_of_nextWith (by decide +kernel)⟩

theorem witness_ProgressIsMonotone : Lifecycle midRun ∧ ∃ t, step midRun = .next t := witness_StepKeepsTheLifecycle

theorem witness_TableIsNeverWritten : ∃ t, step midRun = .next t := midRun_goes_on.imp fun _ h => h.1

theorem witness_ClosedChannelIsNeverUsed :
    (stoppedState [0x01, 0x00, 0x54]).channelOpen = false ∧ ∃ t, step (stoppedState [0x01, 0x00, 0x54]) = .next t :=
  ⟨rfl, witness_StoppedEngineIsFrozen.2.2.imp fun _ h => h.1⟩

theorem witness_OnlyARunReadsAndOnlyInitWrites :
    (∃ t, step midRun = .next t ∧ decide (t.cursor ≠ midRun.cursor) = true) ∧
    (∃ t, step (callState [0x08, 0x00] [.ok]) = .next t ∧
      decide (t.output ≠ (callState [0x08, 0x00] [.ok]).output) = true) ∧
    (∃ t, step (valueState (.initMode .text)) = .next t ∧
      decide (t.output ≠ (valueState (.initMode .text)).output) = true) :=
  ⟨exists_of_nextWith (by decide +kernel), exists_of_nextWith (by decide +kernel), exists_of_nextWith (by decide +kernel)⟩

theorem witness_EngineNeverFaults : Lifecycle midRun ∧ midRun.params.counterWidth = none := ⟨midRun_lifecycle, rfl⟩

theorem witness_RunningEngineAlwaysGoesOn :
    Lifecycle midRun ∧ midRun.params.counterWidth = none ∧ midRun.phase = .running := ⟨midRun_lifecycle, rfl, rfl⟩

/-- A caller's step, one of the engine's requests, and an operation that goes on. -/
theorem witness_CancelIsUnseenInsideOperations :
    State.reset.phase ≠ .running ∧ midRun.engineReq ≠ [] ∧ ∃ t, exec .runStep midRun = .next t ∧ decide (t.valid = 2) = true :=
  ⟨by decide, by decide, exists_of_nextWith (by decide +kernel)⟩

theorem witness_OnlyTheCallerSetsCancel :
    (∃ u, engineStep midRun = .next u ∧ decide (u.cancel = false) = true) ∧
    (∃ t, step { State.reset with cancelInputs := [true] } = .next t ∧ decide (t.cancel = true) = true) ∧
    { State.reset with cancelInputs := [true] }.cancelInputs = true :: [] :=
  ⟨exists_of_nextWith (by decide +kernel), exists_of_nextWith (by decide +kernel), rfl⟩

theorem witness_TraceIsNeverRead : ∃ t, step midRun = .next t := witness_TableIsNeverWritten

theorem witness_SilentChannelRunsOn :
    Attempting (runState plain [] [.bytes 0, .bytes 0]) plain ∧ plain.budget = none ∧
    (runState plain [] [.bytes 0, .bytes 0]).params.counterWidth = none ∧
    (runState plain [] [.bytes 0, .bytes 0]).engineReq = [] ∧
    (runState plain [] [.bytes 0, .bytes 0]).readDraws = List.replicate 2 (.bytes 0) ++ [] ∧
    (∀ j < 2, ((runState plain [] [.bytes 0, .bytes 0]).cancel ::
      (runState plain [] [.bytes 0, .bytes 0]).cancelInputs)[2 * j]? = some false) :=
  ⟨attempting_runState _ _ _, rfl, rfl, rfl, rfl, by decide⟩

/-- A misheaded window and a valid one. -/
def twoWindows : List ByteFrame := [⟨0x55, 0x64, 0x00, 0x45⟩, ⟨0x54, 0x64, 0x00, 0x2E⟩]

theorem witness_RunAccountsForEveryWindow :
    Attempting (runState plain (twoWindows.flatMap fun f => [f.b0, f.b1, f.b2, f.b3]) [.bytes 4, .bytes 4]) plain ∧
    plain.budget = none ∧ plain.timestamps = false ∧
    (runState plain (twoWindows.flatMap fun f => [f.b0, f.b1, f.b2, f.b3]) [.bytes 4, .bytes 4]).params.counterWidth = none ∧
    (runState plain (twoWindows.flatMap fun f => [f.b0, f.b1, f.b2, f.b3]) [.bytes 4, .bytes 4]).engineReq = [] ∧
    (runState plain (twoWindows.flatMap fun f => [f.b0, f.b1, f.b2, f.b3]) [.bytes 4, .bytes 4]).input =
      (twoWindows.flatMap fun f => [f.b0, f.b1, f.b2, f.b3]) ++ [] ∧
    (runState plain (twoWindows.flatMap fun f => [f.b0, f.b1, f.b2, f.b3]) [.bytes 4, .bytes 4]).readDraws =
      List.replicate twoWindows.length (.bytes 4) ++ [] ∧
    (∀ j < twoWindows.length,
      ((runState plain (twoWindows.flatMap fun f => [f.b0, f.b1, f.b2, f.b3]) [.bytes 4, .bytes 4]).cancel ::
        (runState plain (twoWindows.flatMap fun f => [f.b0, f.b1, f.b2, f.b3]) [.bytes 4, .bytes 4]).cancelInputs)[2 * j]? =
        some false) :=
  ⟨attempting_runState _ _ _, rfl, rfl, rfl, rfl, rfl, rfl, by decide⟩

/-- Two valid frames (program P1) ahead of a READY engine asked for two samples. -/
def twoFrames : List ByteFrame := [⟨0x54, 0x64, 0x00, 0x2E⟩, ⟨0x54, 0xE8, 0x03, 0x6D⟩]

def budgetedStart : State :=
  { readyState [0x07, 0x01, 0x02, 0x00, 0x00, 0x00] with
    input := twoFrames.flatMap fun f => [f.b0, f.b1, f.b2, f.b3], readDraws := [.bytes 4, .bytes 4],
    cancelInputs := List.replicate 6 false }

theorem witness_BudgetedRunCompletes :
    Lifecycle budgetedStart ∧ budgetedStart.phase = .ready ∧ budgetedStart.params.counterWidth = none ∧
    ((twoFrames.length < 4294967296 ∧
        budgetedStart.program = encode (.run (some twoFrames.length) false .wholeFrameDiscard) ++ []) ∨
      (budgetedStart.program = [] ∧
        budgetedStart.requests = .run (some twoFrames.length) false .wholeFrameDiscard :: [])) ∧
    (∀ f ∈ twoFrames, f.b0 = 0x54 ∧ crcOf budgetedStart.params.crcTable [f.b0, f.b1, f.b2] = f.b3) ∧
    budgetedStart.input = (twoFrames.flatMap fun f => [f.b0, f.b1, f.b2, f.b3]) ++ [] ∧
    budgetedStart.readDraws = List.replicate twoFrames.length (.bytes 4) ++ [] ∧
    (∀ j < twoFrames.length, (budgetedStart.cancel :: budgetedStart.cancelInputs)[2 * j + 1]? = some false) := by
  refine ⟨?_, rfl, rfl, .inl ⟨by decide, by decide⟩, by decide +kernel, rfl, rfl, by decide⟩
  constructor <;> simp [budgetedStart, readyState, State.reset, Config.params, t07_admitted]

/-- The same run requested by value. -/
theorem witness_BudgetedRunCompletes_value :
    Lifecycle { budgetedStart with program := [], requests := [.run (some twoFrames.length) false .wholeFrameDiscard] } ∧
    ({ budgetedStart with program := [], requests := [.run (some twoFrames.length) false .wholeFrameDiscard] } : State).requests =
      .run (some twoFrames.length) false .wholeFrameDiscard :: [] := by
  refine ⟨?_, rfl⟩
  constructor <;> simp [budgetedStart, readyState, State.reset, Config.params, t07_admitted]

theorem witness_NumberedRegistersShowTheState :
    State.reset.runConfig = none ∧ midRun.runConfig = some ⟨some 2, true, .wholeFrameDiscard⟩ := ⟨rfl, rfl⟩

end Sys2Proof.Tests
end

section
/-! PROOFS. What a step leaves and where its operation comes from: the layer the statements of spec/10_state.md rest on. -/

namespace Sys2Proof.Machine

open Sys2Proof.Safety

/-! ### The window read -/

/-- A window read writes FRAME, CURSOR, the stream and the draws, and nothing else (spec/42_stream_sync.md R151). -/
theorem pullFrame_frame_rule (s : State) :
    (pullFrame s).2 = { s with
      frame := (pullFrame s).2.frame, cursor := (pullFrame s).2.cursor, input := (pullFrame s).2.input,
      readDraws := (pullFrame s).2.readDraws, drawNo := (pullFrame s).2.drawNo } := by
  have hd : afterReadDraw s = { s with readDraws := (afterReadDraw s).readDraws, drawNo := (afterReadDraw s).drawNo } := by
    unfold afterReadDraw; split <;> rfl
  rcases pullFrame_cases s with ⟨_, h⟩ | ⟨_, n, _, _, _, h⟩ | ⟨_, f, _, _, h⟩ <;> rw [h, hd] <;> rfl

/-- A window read moves CURSOR forward, by at most 4 bytes (spec/42_stream_sync.md R152, R153). -/
theorem pullFrame_cursor_bounds (s : State) :
    s.cursor ≤ (pullFrame s).2.cursor ∧ (pullFrame s).2.cursor ≤ s.cursor + 4 := by
  rcases pullFrame_cases s with ⟨_, h⟩ | ⟨_, n, _, _, hn, h⟩ | ⟨_, f, _, _, h⟩ <;> rw [h] <;> simp
  omega

/-- An attempt moves CURSOR forward, by at most 4 bytes (spec/42_stream_sync.md R152, R153). -/
theorem Attempted.cursor_bounds {s t : State} {c : RunConfig} {o : AttemptOutcome} (a : Attempted s c o t) :
    s.cursor ≤ t.cursor ∧ t.cursor ≤ s.cursor + 4 := by
  by_cases hf : o = .transportFailure
  · obtain ⟨hc, _⟩ := a.failedRead hf
    omega
  · by_cases ht : o = .timeout
    · obtain ⟨n, hn, hc, _⟩ := a.shortRead ht
      omega
    · obtain ⟨hc, _⟩ := a.fullRead hf ht
      omega

/-! ### Where a step's operation comes from -/

/-- Operation `i` is the next one of the caller's image, of its requests by value, or of the engine's slot. -/
def Requested (s : State) (i : Instr) : Prop :=
  (∃ rest, decodeOp .caller s.program = .ok (i, rest)) ∨ (s.program = [] ∧ s.requests.head? = some i) ∨
    ∃ rest, decodeOp .engine s.engineReq = .ok (i, rest)

/-- The step takes the request for operation `i`, which leaves `s1`: the slot is empty then, and only the slot may hold an
operation that is the engine's own (spec/30_encoding.md R93). -/
structure Took (s : State) (i : Instr) (s1 : State) : Prop where
  state : s1 = { s with program := s1.program, requests := s1.requests, engineReq := [] }
  source : Requested s i
  issuer : i.issuer = .caller ∨ ∃ rest, decodeOp .engine s.engineReq = .ok (i, rest)

/-- What RUN's between-frame check leaves when it stops the run (spec/43_pipeline.md R172, R175). -/
def stoppedBy (reason : StopReason) (s : State) : State :=
  { s with stopReason := reason, channelOpen := false, events := s.events ++ [.close], phase := .stopped,
           result := some (.run (summary s) reason) }

/-- The four kinds of step: nothing to do, a check that stops the run, a check that issues an attempt, one operation. -/
theorem Stepped.kinds {s u : State} (h : Stepped s u) :
    u = s ∨
    (∃ reason, reason ≠ .none ∧ s.engineReq = [] ∧ s.phase = .running ∧ s.channelOpen = true ∧ u = stoppedBy reason s) ∨
    (s.phase = .running ∧ u = issueRunStep s) ∨
    ∃ i s1, Took s i s1 ∧ Operated s1 i u := by
  cases h with
  | idle => exact .inl rfl
  | stopped he hp hc hb ho => exact .inr (.inl ⟨.budgetReached, by simp, he, hp, ho, rfl⟩)
  | cancelled he hp hc hb hl ho => exact .inr (.inl ⟨.cancelled, by simp, he, hp, ho, rfl⟩)
  | issued he hp => exact .inr (.inr (.inl ⟨hp, rfl⟩))
  | @callerOp i rest _ he hp hi hd h =>
    exact .inr (.inr (.inr ⟨i, _, ⟨by simp [he], .inl ⟨rest, hd⟩, .inl hi⟩, h⟩))
  | @callerValue i rest _ he hp hi hl hr h =>
    exact .inr (.inr (.inr ⟨i, _, ⟨by simp [he], .inr (.inl ⟨hl, by simp [hr]⟩), .inl hi⟩, h⟩))
  | @engineOp i rest _ he hd h =>
    exact .inr (.inr (.inr ⟨i, _, ⟨rfl, .inr (.inr ⟨rest, hd⟩), .inr ⟨rest, hd⟩⟩, h⟩))

/-- In an engine's life no step takes CLOSE as its operation: the slot holds RUN_STEP alone (log 7). -/
theorem Took.ne_close {s s1 : State} {i : Instr} (h : Took s i s1) (l : Lifecycle s) : i ≠ .close := by
  rintro rfl
  rcases h.issuer with hi | ⟨rest, hd⟩
  · cases hi
  · rcases l.engineOwn with he | ⟨he, _⟩ <;> rw [he] at hd <;> cases hd

/-! ### The lifecycle -/

/-- Taking a request keeps the lifecycle. -/
theorem Took.lifecycle {s s1 : State} {i : Instr} (h : Took s i s1) (l : Lifecycle s) : Lifecycle s1 := by
  rw [h.state]
  exact { l with engineOwn := .inl rfl }

/-- A state of a run meets the lifecycle when it agrees with one that does in the table, ACC, the channel, the reason and
the latched configuration: what holds before RUN does not matter any more. -/
theorem lifecycle_of_running {s t : State} (l : Lifecycle s) (hs : s.phase = .running) (ht : t.phase = .running)
    (hparams : t.params = s.params) (hacc : t.acc = s.acc) (hopen : t.channelOpen = s.channelOpen)
    (hreason : t.stopReason = s.stopReason) (hconfig : t.runConfig = s.runConfig)
    (hslot : t.engineReq = [] ∨ t.engineReq = encode .runStep) : Lifecycle t where
  admitted := hparams ▸ l.admitted
  accFree := hacc.trans l.accFree
  openUntilStop := by rw [hopen, ht, ← hs]; exact l.openUntilStop
  reasonAtStop := by rw [hreason, ht, ← hs]; exact l.reasonAtStop
  latchedInRun _ := hconfig ▸ l.latchedInRun hs
  wholeFrames := hconfig ▸ l.wholeFrames
  engineOwn := hslot.imp_right fun h => ⟨h, ht⟩
  beforeRun h := by rw [ht] at h; simp at h

/-- A stop ends in the lifecycle when it closes the channel, sets the reason and leaves the table, ACC and the latched
configuration alone. -/
theorem lifecycle_of_stopped {s t : State} (l : Lifecycle s) (ht : t.phase = .stopped)
    (hparams : t.params = s.params) (hacc : t.acc = s.acc) (hclosed : t.channelOpen = false)
    (hreason : t.stopReason ≠ .none) (hconfig : t.runConfig = s.runConfig) (hslot : t.engineReq = []) : Lifecycle t where
  admitted := hparams ▸ l.admitted
  accFree := hacc.trans l.accFree
  openUntilStop := by simp [hclosed, ht]
  reasonAtStop := by simp [hreason, ht]
  latchedInRun h := by rw [ht] at h; cases h
  wholeFrames := hconfig ▸ l.wholeFrames
  engineOwn := .inl hslot
  beforeRun h := by rw [ht] at h; simp at h

/-- Every operation but CLOSE keeps the lifecycle, its request taken. -/
theorem Operated.lifecycle {s t : State} {i : Instr} (h : Operated s i t) (hi : i ≠ .close) (he : s.engineReq = [])
    (l : Lifecycle s) : Lifecycle t := by
  cases h with
  | pure _ ht ha =>
    have hacc : t.acc = none := ha.elim (·.trans l.accFree) id
    rw [ht]
    exact { l with accFree := hacc }
  | pulled hp =>
    rw [pullFrame_frame_rule s]
    exact lifecycle_of_running l hp hp rfl rfl rfl rfl rfl (.inl he)
  | attempted hp _ _ _ a =>
    exact lifecycle_of_running l hp (a.phase.trans hp) a.params a.acc a.channelOpen a.stopReason a.runConfig
      (.inl (a.engineReq.trans he))
  | failed _ _ _ a => exact lifecycle_of_stopped l rfl a.params a.acc rfl (by simp) a.runConfig (a.engineReq.trans he)
  | started hp ho =>
    have hnotStopped : s.phase ≠ .stopped := by simp [hp]
    exact
      { admitted := l.admitted
        accFree := l.accFree
        openUntilStop := by simp [ho]
        reasonAtStop := by simp [l.reasonAtStop.mpr hnotStopped]
        latchedInRun := by simp [startRun]
        wholeFrames := by simp [startRun]
        engineOwn := .inl he
        beforeRun := by simp }
  | inited hp ho =>
    have hnotStopped : s.phase ≠ .stopped := by simp [hp]
    have hbefore := l.beforeRun (.inl hp)
    exact
      { admitted := by simpa using l.admitted
        accFree := by simpa using l.accFree
        openUntilStop := by simp [ho]
        reasonAtStop := by simp [l.reasonAtStop.mpr hnotStopped]
        latchedInRun := by simp
        wholeFrames := by simpa using l.wholeFrames
        engineOwn := .inl (by simpa using he)
        beforeRun := by simpa using hbefore }
  | initFailed => exact lifecycle_of_stopped l rfl (by simp) (by simp) rfl (by simp) (by simp) (by simpa using he)
  | closed => exact absurd rfl hi

/-- The engine's part of a step keeps the lifecycle. -/
theorem Stepped.lifecycle {s u : State} (h : Stepped s u) (l : Lifecycle s) : Lifecycle u := by
  rcases h.kinds with rfl | ⟨reason, hreason, he, _, _, rfl⟩ | ⟨hp, rfl⟩ | ⟨i, s1, htook, hop⟩
  · exact l
  · exact lifecycle_of_stopped l rfl rfl rfl rfl hreason rfl he
  · exact lifecycle_of_running l hp hp rfl rfl rfl rfl rfl (.inr rfl)
  · exact hop.lifecycle (htook.ne_close l) (congrArg State.engineReq htook.state) (htook.lifecycle l)

/-- The caller's turn touches nothing the lifecycle speaks of. -/
theorem callerTurn_lifecycle {s : State} (l : Lifecycle s) : Lifecycle (callerTurn s) := by
  rw [callerTurn_eq]
  exact { l with }

/-- Settles O39: by the kinds of step, each operation but CLOSE, which no step takes, and the caller's turn keep it. -/
theorem stepKeepsTheLifecycle : Obligations.StepKeepsTheLifecycle := by
  intro s t l h
  obtain ⟨u, hu, rfl⟩ := stepped_of_next h
  exact callerTurn_lifecycle (hu.lifecycle l)

end Sys2Proof.Machine
end

section
/-! PROOFS. What every step keeps, how PHASE moves, and who touches the channel (spec/10_state.md R26 to R35). -/

namespace Sys2Proof.Machine

open Sys2Proof.Safety

/-! ### What every operation leaves alone, and what it only extends -/

/-- No operation writes the parameters, CANCEL or the caller's coming levels (spec/10_state.md R24, R32). -/
theorem Operated.inputs_unchanged {s t : State} {i : Instr} (h : Operated s i t) :
    t.params = s.params ∧ t.cancel = s.cancel ∧ t.cancelInputs = s.cancelInputs := by
  cases h with
  | pure _ ht _ => rw [ht]; exact ⟨rfl, rfl, rfl⟩
  | pulled => rw [pullFrame_frame_rule s]; exact ⟨rfl, rfl, rfl⟩
  | attempted _ _ _ _ a => exact ⟨a.params, a.cancel, a.cancelInputs⟩
  | failed _ _ _ a => exact ⟨a.params, a.cancel, a.cancelInputs⟩
  | started => exact ⟨rfl, rfl, rfl⟩
  | inited => simp
  | initFailed => simp
  | closed => exact ⟨rfl, rfl, rfl⟩

/-- The engine's part of a step writes neither the parameters nor CANCEL nor the caller's coming levels. -/
theorem Stepped.inputs_unchanged {s u : State} (h : Stepped s u) :
    u.params = s.params ∧ u.cancel = s.cancel ∧ u.cancelInputs = s.cancelInputs := by
  rcases h.kinds with rfl | ⟨_, _, _, _, _, rfl⟩ | ⟨_, rfl⟩ | ⟨i, s1, htook, hop⟩
  · exact ⟨rfl, rfl, rfl⟩
  · exact ⟨rfl, rfl, rfl⟩
  · exact ⟨rfl, rfl, rfl⟩
  · have hkeep := hop.inputs_unchanged
    rw [htook.state] at hkeep
    exact hkeep

/-- `t` is no further back than `s`: CURSOR and the counters no lower, trace, sink and output extended. -/
structure Extends (s t : State) : Prop where
  cursor : s.cursor ≤ t.cursor
  valid : s.valid ≤ t.valid
  headerMismatches : s.headerMismatches ≤ t.headerMismatches
  checksumFailures : s.checksumFailures ≤ t.checksumFailures
  timeouts : s.timeouts ≤ t.timeouts
  events : s.events <+: t.events
  sink : s.sink <+: t.sink
  output : s.output <+: t.output

theorem Extends.refl (s : State) : Extends s s :=
  ⟨le_rfl, le_rfl, le_rfl, le_rfl, le_rfl, List.prefix_rfl, List.prefix_rfl, List.prefix_rfl⟩

/-- An attempt extends what was there (spec/43_pipeline.md R173, R177, R181). -/
theorem Attempted.extended {s t : State} {c : RunConfig} {o : AttemptOutcome} (a : Attempted s c o t) : Extends s t where
  cursor := a.cursor_bounds.1
  valid := a.valid ▸ Nat.le_add_right _ _
  headerMismatches := a.headerMismatches ▸ Nat.le_add_right _ _
  checksumFailures := a.checksumFailures ▸ Nat.le_add_right _ _
  timeouts := a.timeouts ▸ Nat.le_add_right _ _
  events := a.events ▸ List.prefix_append _ _
  sink := a.sink ▸ List.prefix_append _ _
  output := a.output ▸ List.prefix_rfl

/-- Every operation extends what was there; RUN's start clears counters that are 0 before it (spec/10_state.md R38). -/
theorem Operated.extended {s t : State} {i : Instr} (h : Operated s i t) (l : Lifecycle s) : Extends s t := by
  cases h with
  | pure _ ht _ => rw [ht]; exact { Extends.refl s with }
  | pulled =>
    have hcursor := (pullFrame_cursor_bounds s).1
    rw [pullFrame_frame_rule s]
    exact { Extends.refl s with cursor := hcursor }
  | attempted _ _ _ _ a => exact a.extended
  | failed _ _ _ a => exact { a.extended with events := a.extended.events.trans (List.prefix_append _ _) }
  | started hp =>
    obtain ⟨_, _, _, _, hv, hh, hc, ht⟩ := l.beforeRun (.inr hp)
    exact { Extends.refl s with
      valid := hv.le, headerMismatches := hh.le, checksumFailures := hc.le, timeouts := ht.le }
  | inited => constructor <;> simp
  | initFailed => constructor <;> simp
  | closed => exact { Extends.refl s with events := List.prefix_append _ _ }

/-- The engine's part of a step extends what was there. -/
theorem Stepped.extended {s u : State} (h : Stepped s u) (l : Lifecycle s) : Extends s u := by
  rcases h.kinds with rfl | ⟨_, _, _, _, _, rfl⟩ | ⟨_, rfl⟩ | ⟨i, s1, htook, hop⟩
  · exact .refl u
  · exact { Extends.refl s with events := List.prefix_append _ _ }
  · exact { Extends.refl s with }
  · have hext := hop.extended (htook.lifecycle l)
    rw [htook.state] at hext
    exact { hext with }

/-- Settles O46: every kind of step extends CURSOR, the counters, trace, sink and output. -/
theorem progressIsMonotone : Obligations.ProgressIsMonotone := by
  intro s t l h
  obtain ⟨u, hu, rfl⟩ := stepped_of_next h
  obtain ⟨hcursor, hv, hh, hc, ht, hevents, hsink, houtput⟩ := hu.extended l
  rw [callerTurn_eq]
  exact ⟨hcursor, hv, hh, hc, ht, hevents, hsink, houtput⟩

/-- Settles O47: no operation writes the parameters, and SYNC_STATE has one value alone (spec/10_state.md R26). -/
theorem tableIsNeverWritten : Obligations.TableIsNeverWritten := by
  intro s t h
  obtain ⟨u, hu, rfl⟩ := stepped_of_next h
  obtain ⟨hparams, _, _⟩ := hu.inputs_unchanged
  exact ⟨(callerTurn_params u).trans hparams, by cases (callerTurn u).syncState; rfl⟩

/-- The caller's turn sets CANCEL to the next level listed (spec/10_state.md R32; log 2). -/
theorem callerTurn_listed {s : State} {level : Bool} {levels : List Bool} (h : s.cancelInputs = level :: levels) :
    (callerTurn s).cancel = level ∧ (callerTurn s).cancelInputs = levels := by
  unfold callerTurn
  rw [h]
  exact ⟨rfl, rfl⟩

/-- A bit shows as 0 or 1 (spec/10_state.md R36). -/
theorem regValue_bit (b : Bool) : RegValue.nat b.toNat = .nat (if b then 1 else 0) := by cases b <;> rfl

/-- C3 shows CANCEL (spec/10_state.md R36). -/
theorem readReg_c3 (s : State) : readReg .c3 s = .nat (if s.cancel then 1 else 0) := regValue_bit s.cancel

/-- Settles O60: the engine's part of a step leaves CANCEL and its coming levels, and the caller's turn sets the next one. -/
theorem onlyTheCallerSetsCancel : Obligations.OnlyTheCallerSetsCancel := by
  constructor
  · intro s u h
    exact (stepped_of_engineStep h).inputs_unchanged.2
  · intro s t level levels h hl
    obtain ⟨u, hu, rfl⟩ := stepped_of_next h
    obtain ⟨_, _, hlevels⟩ := hu.inputs_unchanged
    obtain ⟨hcancel, hrest⟩ := callerTurn_listed (hlevels.trans hl)
    exact ⟨hcancel, hrest, by rw [readReg_c3, hcancel]⟩

/-! ### PHASE -/

/-- PHASE stays, or moves by one of R28's transitions with its cause (spec/10_state.md R28). -/
def PhaseMove (s t : State) : Prop :=
  t.phase = s.phase ∨
  (s.phase = .reset ∧ t.phase = .ready ∧ t.result = some (.init (.ok ()))) ∨
  (s.phase = .reset ∧ t.phase = .stopped ∧ t.result = some (.init (.err .writeFailed)) ∧ t.stopReason = .initFailed) ∨
  (s.phase = .ready ∧ t.phase = .running ∧ t.runConfig.isSome = true ∧ t.valid = 0) ∨
  (s.phase = .running ∧ t.phase = .stopped ∧ t.channelOpen = false ∧
    t.result = some (.run ⟨t.valid, t.headerMismatches, t.checksumFailures, t.timeouts⟩ t.stopReason))

theorem Operated.phaseMove {s t : State} {i : Instr} (h : Operated s i t) : PhaseMove s t := by
  cases h with
  | pure _ ht _ => rw [ht]; exact .inl rfl
  | pulled => rw [pullFrame_frame_rule s]; exact .inl rfl
  | attempted _ _ _ _ a => exact .inl a.phase
  | failed hp => exact .inr (.inr (.inr (.inr ⟨hp, rfl, rfl, rfl⟩)))
  | started hp => exact .inr (.inr (.inr (.inl ⟨hp, rfl, rfl, rfl⟩)))
  | inited hp => exact .inr (.inl ⟨hp, rfl, rfl⟩)
  | initFailed hp => exact .inr (.inr (.inl ⟨hp, rfl, rfl, rfl⟩))
  | closed => exact .inl rfl

theorem Stepped.phaseMove {s u : State} (h : Stepped s u) : PhaseMove s u := by
  rcases h.kinds with rfl | ⟨_, _, _, hp, _, rfl⟩ | ⟨_, rfl⟩ | ⟨i, s1, htook, hop⟩
  · exact .inl rfl
  · exact .inr (.inr (.inr (.inr ⟨hp, rfl, rfl, rfl⟩)))
  · exact .inl rfl
  · have hmove := hop.phaseMove
    rw [htook.state] at hmove
    exact hmove

/-- Settles O44: each kind of step moves PHASE as R28 lists or not at all, and the caller's turn does not. -/
theorem phaseMovesOnlyAsListed : Obligations.PhaseMovesOnlyAsListed := by
  refine ⟨rfl, fun s t h => ?_⟩
  obtain ⟨u, hu, rfl⟩ := stepped_of_next h
  rw [callerTurn_eq]
  exact hu.phaseMove

/-! ### The channel -/

/-- `t` has the channel's storage and answers of `s`, and its channel is closed. -/
structure ChannelIdle (s t : State) : Prop where
  closed : t.channelOpen = false
  cursor : t.cursor = s.cursor
  input : t.input = s.input
  output : t.output = s.output
  readDraws : t.readDraws = s.readDraws
  writeDraws : t.writeDraws = s.writeDraws

/-- On a closed channel only the pure operations complete (spec/10_state.md R34). -/
theorem Operated.channelIdle {s t : State} {i : Instr} (h : Operated s i t) (hclosed : s.channelOpen = false) :
    ChannelIdle s t := by
  have hopen : s.channelOpen ≠ true := by simp [hclosed]
  cases h with
  | pure _ ht _ => rw [ht]; exact ⟨hclosed, rfl, rfl, rfl, rfl, rfl⟩
  | pulled _ ho => exact absurd ho hopen
  | attempted _ ho => exact absurd ho hopen
  | failed _ ho => exact absurd ho hopen
  | started _ ho => exact absurd ho hopen
  | inited _ ho => exact absurd ho hopen
  | initFailed _ ho => exact absurd ho hopen
  | closed ho => exact absurd ho hopen

theorem Stepped.channelIdle {s u : State} (h : Stepped s u) (hclosed : s.channelOpen = false) : ChannelIdle s u := by
  rcases h.kinds with rfl | ⟨_, _, _, _, ho, rfl⟩ | ⟨_, rfl⟩ | ⟨i, s1, htook, hop⟩
  · exact ⟨hclosed, rfl, rfl, rfl, rfl, rfl⟩
  · exact absurd ho (by simp [hclosed])
  · exact ⟨hclosed, rfl, rfl, rfl, rfl, rfl⟩
  · have hidle := hop.channelIdle ((congrArg State.channelOpen htook.state).trans hclosed)
    rw [htook.state] at hidle
    exact { hidle with }

/-- Settles O48: a step that completes on a closed channel is idle, issues an attempt or runs a pure operation. -/
theorem closedChannelIsNeverUsed : Obligations.ClosedChannelIsNeverUsed := by
  intro s t hclosed h
  obtain ⟨u, hu, rfl⟩ := stepped_of_next h
  obtain ⟨hc, hcursor, hinput, houtput, hreads, hwrites⟩ := hu.channelIdle hclosed
  rw [callerTurn_eq]
  exact ⟨hc, hcursor, hinput, houtput, hreads, hwrites⟩

/-- CURSOR moves only in RUNNING, by at most 4 (spec/10_state.md R27). -/
def ReadsInARun (s t : State) : Prop := t.cursor ≠ s.cursor → s.phase = .running ∧ t.cursor ≤ s.cursor + 4

/-- The output grows only by INIT_MODE in RESET, by at most 4 bytes, with CURSOR where it was. -/
def SendsByInit (s : State) (i : Instr) (t : State) : Prop :=
  t.output ≠ s.output → s.phase = .reset ∧ (∃ r, t.result = some (.init r)) ∧ (∃ mode, i = .initMode mode) ∧
    s.cursor = t.cursor ∧ ∃ sent, sent.length ≤ 4 ∧ t.output = s.output ++ sent

theorem Operated.readsInARun {s t : State} {i : Instr} (h : Operated s i t) : ReadsInARun s t := by
  cases h with
  | pure _ ht _ => exact fun hne => absurd (congrArg State.cursor ht) hne
  | pulled hp => exact fun _ => ⟨hp, (pullFrame_cursor_bounds s).2⟩
  | attempted hp _ _ _ a => exact fun _ => ⟨hp, a.cursor_bounds.2⟩
  | failed hp _ _ a => exact fun _ => ⟨hp, a.cursor_bounds.2⟩
  | started => exact absurd rfl
  | inited => exact fun hne => absurd (afterWriteDraw_cursor s) hne
  | initFailed => exact fun hne => absurd (afterWriteDraw_cursor s) hne
  | closed => exact absurd rfl

theorem Operated.sendsByInit {s t : State} {i : Instr} (h : Operated s i t) : SendsByInit s i t := by
  cases h with
  | pure _ ht _ => exact fun hne => absurd (congrArg State.output ht) hne
  | pulled => exact fun hne => absurd (congrArg State.output (pullFrame_frame_rule s)) hne
  | attempted _ _ _ _ a => exact absurd a.output
  | failed _ _ _ a => exact absurd a.output
  | started => exact absurd rfl
  | @inited mode hp =>
    exact fun _ => ⟨hp, ⟨_, rfl⟩, ⟨mode, rfl⟩, (afterWriteDraw_cursor s).symm, _, (frameBytes_length _).le, rfl⟩
  | @initFailed mode sent hp =>
    exact fun _ => ⟨hp, ⟨_, rfl⟩, ⟨mode, rfl⟩, (afterWriteDraw_cursor s).symm, _,
      (List.length_take_le' _ _).trans (frameBytes_length _).le, rfl⟩
  | closed => exact absurd rfl

/-- Settles O49: CURSOR moves by the window reads alone, and the output by INIT_MODE alone, wherever it is requested. -/
theorem onlyARunReadsAndOnlyInitWrites : Obligations.OnlyARunReadsAndOnlyInitWrites := by
  intro s t h
  obtain ⟨u, hu, rfl⟩ := stepped_of_next h
  rw [callerTurn_eq]
  rcases hu.kinds with rfl | ⟨_, _, _, _, _, rfl⟩ | ⟨_, rfl⟩ | ⟨i, s1, htook, hop⟩
  · exact ⟨absurd rfl, absurd rfl⟩
  · exact ⟨absurd rfl, absurd rfl⟩
  · exact ⟨absurd rfl, absurd rfl⟩
  · have hreads := hop.readsInARun
    have hsends := hop.sendsByInit
    rw [htook.state] at hreads hsends
    refine ⟨hreads, fun hne => ?_⟩
    obtain ⟨hp, hr, ⟨mode, rfl⟩, hcursor, hsent⟩ := hsends hne
    exact ⟨hp, hr, ⟨mode, htook.source⟩, hcursor, hsent⟩

end Sys2Proof.Machine
end

section
/-! PROOFS. The engine never reads EVENTS (spec/10_state.md R35): every part of a step commutes with older entries put before
the trace. -/

namespace Sys2Proof.Machine

/-! ### What commutes with an older trace -/

/-- The state with the entries `pre` before those of its trace. -/
def underTrace (pre : List Event) (s : State) : State := { s with events := pre ++ s.events }

/-- The operation answers the same under an older trace, which stands before what it appends. -/
def TraceBlind (f : State → Answer) : Prop :=
  ∀ pre s, f (underTrace pre s) = andThen (f s) fun t => .next (underTrace pre t)

/-- An update that commutes with an older trace. -/
theorem traceBlind_next {g : State → State} (h : ∀ pre s, g (underTrace pre s) = underTrace pre (g s)) :
    TraceBlind fun s => .next (g s) := fun pre s => congrArg _ (h pre s)

theorem traceBlind_refused (r : Refusal) : TraceBlind fun _ => .refused r := fun _ _ => rfl

theorem traceBlind_fault (r : Fault) : TraceBlind fun _ => .fault r := fun _ _ => rfl

/-- What reads a value that no trace changes, and goes on with it. -/
theorem traceBlind_read {α : Type} {v : State → α} {f : α → State → Answer} (hv : ∀ pre s, v (underTrace pre s) = v s)
    (hf : ∀ a, TraceBlind (f a)) : TraceBlind fun s => f (v s) s := by
  intro pre s
  show f (v (underTrace pre s)) (underTrace pre s) = _
  rw [hv, hf]

/-- An update that commutes with an older trace, and what follows it. -/
theorem traceBlind_comp {g : State → State} {f : State → Answer}
    (hg : ∀ pre s, g (underTrace pre s) = underTrace pre (g s)) (hf : TraceBlind f) : TraceBlind fun s => f (g s) := by
  intro pre s
  show f (g (underTrace pre s)) = _
  rw [hg, hf]

theorem traceBlind_andThen {f k : State → Answer} (hf : TraceBlind f) (hk : TraceBlind k) :
    TraceBlind fun s => andThen (f s) k := by
  intro pre s
  show andThen (f (underTrace pre s)) k = andThen (andThen (f s) k) _
  rw [hf]
  cases f s with
  | next t => exact hk pre t
  | fault r => rfl
  | refused r => rfl

/-! ### The shared operations -/

theorem traceBlind_finish (r : OpResult) : TraceBlind (finish r) := traceBlind_next fun _ _ => rfl

theorem traceBlind_needTable {f : State → Answer} (hf : TraceBlind f) : TraceBlind fun s => needTable s (f s) :=
  traceBlind_read (v := fun s => isPermutation s.params.crcTable)
    (f := fun b s => if b then f s else .refused .tableNotPermutation) (fun _ _ => rfl)
    fun b => by cases b; exacts [traceBlind_refused _, hf]

theorem traceBlind_needPhase (p : Phase) {f : State → Answer} (hf : TraceBlind f) :
    TraceBlind fun s => needPhase p s (f s) :=
  traceBlind_read (v := State.phase) (f := fun q s => if q = p then f s else .refused (.wrongPhase p)) (fun _ _ => rfl)
    fun q => by by_cases h : q = p <;> simp only [h, if_true, if_false]; exacts [hf, traceBlind_refused _]

theorem traceBlind_needChannel {f : State → Answer} (hf : TraceBlind f) : TraceBlind fun s => needChannel s (f s) :=
  traceBlind_read (v := State.channelOpen) (f := fun b s => if b then f s else .refused .channelClosed) (fun _ _ => rfl)
    fun b => by cases b; exacts [traceBlind_refused _, hf]

theorem traceBlind_configRead {f : RunConfig → State → Answer} (hf : ∀ c, TraceBlind (f c)) :
    TraceBlind fun s => configRead s fun c => f c s :=
  traceBlind_read (v := State.runConfig)
    (f := fun o s => match o with | some c => f c s | none => .fault .runConfigNoValue) (fun _ _ => rfl)
    fun o => by cases o; exacts [traceBlind_fault _, hf _]

theorem traceBlind_frameRead {f : ByteFrame → State → Answer} (hf : ∀ w, TraceBlind (f w)) :
    TraceBlind fun s => frameRead s fun w => f w s :=
  traceBlind_read (v := State.frame) (f := fun o s => match o with | some w => f w s | none => .fault .frameNoValue)
    (fun _ _ => rfl) fun o => by cases o; exacts [traceBlind_fault _, hf _]

theorem traceBlind_accRead {f : Byte → State → Answer} (hf : ∀ a, TraceBlind (f a)) :
    TraceBlind fun s => accRead s fun a => f a s :=
  traceBlind_read (v := State.acc) (f := fun o s => match o with | some a => f a s | none => .fault .accNoValue)
    (fun _ _ => rfl) fun o => by cases o; exacts [traceBlind_fault _, hf _]

theorem logEvent_underTrace (e : Event) (pre : List Event) (s : State) :
    logEvent e (underTrace pre s) = underTrace pre (logEvent e s) := by
  simp [logEvent, underTrace, List.append_assoc]

/-- The end of an operation with its trace entry. -/
theorem traceBlind_finish_logEvent (r : OpResult) (e : Event) : TraceBlind fun s => finish r (logEvent e s) :=
  traceBlind_comp (logEvent_underTrace e) (traceBlind_finish r)

theorem traceBlind_count (c : Counter) : TraceBlind (count c) :=
  traceBlind_read (v := fun s => counterFits s.params.counterWidth (counterValue c s))
    (f := fun b s => if b then .next (counterUp c s) else .fault (.counterOverflow c)) (fun _ _ => by cases c <;> rfl)
    fun b => by cases b; exacts [traceBlind_fault _, traceBlind_next fun _ _ => by cases c <;> rfl]

theorem traceBlind_chanClose : TraceBlind chanClose :=
  traceBlind_needChannel (traceBlind_next fun pre s => logEvent_underTrace .close pre { s with channelOpen := false })

theorem traceBlind_stopWith (reason : StopReason) (r : OpResult) : TraceBlind (stopWith reason r) :=
  traceBlind_andThen (traceBlind_comp (g := fun s => { s with stopReason := reason }) (fun _ _ => rfl) traceBlind_chanClose)
    (traceBlind_comp (g := fun s => { s with phase := .stopped }) (fun _ _ => rfl) (traceBlind_finish r))

theorem afterReadDraw_underTrace (pre : List Event) (s : State) :
    afterReadDraw (underTrace pre s) = underTrace pre (afterReadDraw s) := by
  cases h : s.readDraws <;> simp [afterReadDraw, underTrace, h]

theorem tickClock_underTrace (pre : List Event) (s : State) :
    tickClock (underTrace pre s) = underTrace pre (tickClock s) := by
  cases h : s.clockDraws <;> simp [tickClock, underTrace, h]

theorem callerTurn_underTrace (pre : List Event) (s : State) :
    callerTurn (underTrace pre s) = underTrace pre (callerTurn s) := by
  cases h : s.cancelInputs <;> simp [callerTurn, underTrace, h]

/-! ### CRC_COMPUTE -/

theorem traceBlind_accFeed (l : List Byte) : TraceBlind (accFeed l) := by
  induction l with
  | nil => exact traceBlind_next fun _ _ => rfl
  | cons b rest ih =>
    exact traceBlind_accRead fun a =>
      traceBlind_comp (g := fun s => { s with acc := some (crcUpdate s.params.crcTable a b) }) (fun _ _ => rfl) ih

theorem traceBlind_accReturn : TraceBlind accReturn :=
  traceBlind_accRead fun a => traceBlind_comp (g := fun s => { s with acc := none }) (fun _ _ => rfl) (traceBlind_finish (.crc a))

theorem traceBlind_execCrcCompute (data : List Byte) (len : Nat) : TraceBlind (execCrcCompute data len) := by
  refine traceBlind_needTable (f := fun s => if data.length < len then _ else _) ?_
  split
  · exact traceBlind_refused _
  · exact traceBlind_andThen (traceBlind_comp (fun _ _ => rfl) (traceBlind_accFeed _)) traceBlind_accReturn

/-! ### The attempt -/

theorem pullFrame_underTrace (pre : List Event) (s : State) :
    pullFrame (underTrace pre s) = ((pullFrame s).1, underTrace pre (pullFrame s).2) := by
  rcases pullFrame_cases s with ⟨hd, h⟩ | ⟨k, n, hd, hl, hn, h⟩ | ⟨k, f, hd, hb, h⟩
  · rw [h, pullFrame_failed (s := underTrace pre s) hd, afterReadDraw_underTrace]; rfl
  · subst hl
    rw [h, pullFrame_short (s := underTrace pre s) hd hn, afterReadDraw_underTrace]; rfl
  · rw [h, pullFrame_full (s := underTrace pre s) hd hb, afterReadDraw_underTrace]; rfl

theorem traceBlind_endAttempt (o : AttemptOutcome) : TraceBlind (endAttempt o) := by
  unfold endAttempt
  cases counterOf o with
  | none => exact traceBlind_finish_logEvent _ _
  | some c => exact traceBlind_andThen (traceBlind_count c) (traceBlind_finish_logEvent _ _)

theorem stamp_underTrace (enabled : Bool) (pre : List Event) (s : State) :
    stamp enabled (underTrace pre s) = ((stamp enabled s).1, underTrace pre (stamp enabled s).2) := by
  cases enabled with
  | false => rfl
  | true => simp only [stamp, if_true, tickClock_underTrace]; rfl

theorem traceBlind_decodeAttempt (t : Option Nat) : TraceBlind (decodeAttempt t) := by
  refine traceBlind_frameRead fun w pre s => ?_
  show (match decodeFrame s.params.crcTable w with
    | .err .headerMismatch => _ | .err .checksumFailed => _ | .ok x => _) = _
  cases decodeFrame s.params.crcTable w with
  | ok x => exact traceBlind_endAttempt _ pre (sinkEmit { x with capturedAt := t } s)
  | err e =>
    cases e with
    | headerMismatch => exact traceBlind_endAttempt _ pre s
    | checksumFailed => exact traceBlind_endAttempt _ pre s

theorem traceBlind_attempt (c : RunConfig) : TraceBlind (attempt c) := by
  intro pre s
  unfold attempt
  rw [pullFrame_underTrace]
  obtain ⟨r, s1⟩ := pullFrame s
  cases r with
  | ok w =>
    simp only [stamp_underTrace]
    exact traceBlind_decodeAttempt _ pre (stamp c.timestamps s1).2
  | err e =>
    cases e with
    | timeout => exact traceBlind_endAttempt _ pre s1
    | transportFailure => exact traceBlind_endAttempt _ pre s1

/-! ### INIT_MODE -/

theorem sendCommand_underTrace (mode : Mode) (pre : List Event) (s : State) :
    sendCommand mode (underTrace pre s) = ((sendCommand mode s).1, underTrace pre (sendCommand mode s).2) := by
  have hdraw : writeDraw (underTrace pre s) = writeDraw s := rfl
  have hafter : afterWriteDraw (underTrace pre s) = underTrace pre (afterWriteDraw s) := by
    cases h : s.writeDraws <;> simp [afterWriteDraw, underTrace, h]
  unfold sendCommand chanWrite
  rw [hdraw, hafter]
  cases writeDraw s <;> simp [logEvent, underTrace]

theorem traceBlind_execInitMode (mode : Mode) : TraceBlind (execInitMode mode) := by
  refine traceBlind_needTable (traceBlind_needPhase _ (traceBlind_needChannel fun pre s => ?_))
  rw [sendCommand_underTrace]
  obtain ⟨a, s1⟩ := sendCommand mode s
  cases a with
  | ok => rfl
  | fail => exact traceBlind_stopWith _ _ pre s1

/-! ### The step -/

theorem traceBlind_exec (i : Instr) : TraceBlind (exec i) := by
  cases i with
  | crcStep acc b =>
    exact traceBlind_needTable (traceBlind_read (v := State.params) (fun _ _ => rfl) fun p =>
      traceBlind_finish (.crc (crcUpdate p.crcTable acc b)))
  | crcCompute data len => exact traceBlind_execCrcCompute data len
  | decode b0 b1 b2 b3 =>
    exact traceBlind_needTable (traceBlind_read (v := State.params) (fun _ _ => rfl) fun p =>
      traceBlind_finish (.decoded (decodeFrame p.crcTable ⟨b0, b1, b2, b3⟩)))
  | classify code => exact traceBlind_needTable (traceBlind_finish _)
  | nextFrame =>
    refine traceBlind_needTable (traceBlind_needPhase _ (traceBlind_needChannel fun pre s => ?_))
    rw [pullFrame_underTrace]
    rfl
  | runStep =>
    exact traceBlind_needTable (traceBlind_needPhase _ (traceBlind_needChannel (traceBlind_configRead traceBlind_attempt)))
  | run budget ts resync =>
    cases resync with
    | headerHunt => exact traceBlind_needTable (traceBlind_refused _)
    | wholeFrameDiscard =>
      exact traceBlind_needTable (traceBlind_needPhase _ (traceBlind_needChannel (traceBlind_next fun _ _ => rfl)))
  | initMode mode => exact traceBlind_execInitMode mode
  | close => exact traceBlind_needTable (traceBlind_andThen traceBlind_chanClose (traceBlind_finish .closed))

theorem traceBlind_stopRun (reason : StopReason) : TraceBlind (stopRun reason) :=
  traceBlind_read (v := summary) (fun _ _ => rfl) fun m => traceBlind_stopWith reason (.run m reason)

theorem traceBlind_afterAttempt : TraceBlind afterAttempt := by
  intro pre s
  have hr : (underTrace pre s).result = s.result := rfl
  unfold afterAttempt
  rw [hr]
  split
  · exact traceBlind_stopRun _ pre s
  · rfl

theorem traceBlind_betweenFrames : TraceBlind betweenFrames := by
  refine traceBlind_configRead fun c pre s => ?_
  have hv : (underTrace pre s).valid = s.valid := rfl
  have hc : (underTrace pre s).cancel = s.cancel := rfl
  rw [hv, hc]
  split
  · exact traceBlind_stopRun _ pre s
  · split
    · exact traceBlind_stopRun _ pre s
    · rfl

/-- Only RUN_STEP has something added after it (spec/43_pipeline.md R170). -/
theorem afterOp_of_ne {i : Instr} (h : i ≠ .runStep) (o : Answer) : afterOp i o = o := by
  cases i
  case runStep => exact absurd rfl h
  all_goals rfl

theorem traceBlind_afterOp (i : Instr) : TraceBlind fun s => afterOp i (exec i s) := by
  by_cases hi : i = .runStep
  · subst hi
    exact traceBlind_andThen (traceBlind_exec .runStep) traceBlind_afterAttempt
  · simp only [afterOp_of_ne hi]
    exact traceBlind_exec i

/-- What is fetched, with an older trace put under the state its operation runs at. -/
def fetchedUnderTrace (pre : List Event) : Fetched → Fetched
  | .idle => .idle
  | .check => .check
  | .op i s => .op i (underTrace pre s)
  | .reject r => .reject r

theorem fetchFrom_underTrace (pre : List Event) (who : Issuer) (bytes : List Byte) (taken : List Byte → State) :
    fetchFrom who bytes (fun rest => underTrace pre (taken rest)) = fetchedUnderTrace pre (fetchFrom who bytes taken) := by
  unfold fetchFrom
  split <;> rfl

theorem fetchCaller_underTrace (pre : List Event) (s : State) :
    fetchCaller (underTrace pre s) = fetchedUnderTrace pre (fetchCaller s) := by
  have hprog : (underTrace pre s).program = s.program := rfl
  have hreqs : (underTrace pre s).requests = s.requests := rfl
  unfold fetchCaller
  rw [hprog, hreqs]
  split
  · split
    · rfl
    · unfold takeRequest
      split <;> rfl
  · exact fetchFrom_underTrace pre .caller s.program fun rest => { s with program := rest }

theorem fetch_underTrace (pre : List Event) (s : State) : fetch (underTrace pre s) = fetchedUnderTrace pre (fetch s) := by
  by_cases he : s.engineReq = []
  · by_cases hp : s.phase = .running
    · rw [fetch_running he hp, fetch_running (s := underTrace pre s) he hp]; rfl
    · rw [fetch_waiting he hp, fetch_waiting (s := underTrace pre s) he hp, fetchCaller_underTrace]
  · rw [fetch_engine he, fetch_engine (s := underTrace pre s) he]
    exact fetchFrom_underTrace pre .engine s.engineReq fun _ => { s with engineReq := [] }

theorem traceBlind_engineStep : TraceBlind engineStep := by
  intro pre s
  unfold engineStep
  rw [fetch_underTrace]
  cases fetch s with
  | idle => rfl
  | check => exact traceBlind_betweenFrames pre s
  | op i s1 => exact traceBlind_afterOp i pre s1
  | reject r => rfl

theorem traceBlind_step : TraceBlind step := traceBlind_andThen traceBlind_engineStep (traceBlind_next callerTurn_underTrace)

/-- Settles O53: the step from the same state with an empty trace appends `l`, and under every trace it does the same. -/
theorem traceIsNeverRead : Obligations.TraceIsNeverRead := by
  intro s t other h
  have hunder := fun pre => traceBlind_step pre { s with events := [] }
  simp only [underTrace, List.append_nil] at hunder
  obtain ⟨u, hu, ht⟩ := andThen_eq_next.mp ((hunder s.events).symm.trans h)
  cases ht
  exact ⟨u.events, rfl, by rw [hunder other, hu]; rfl⟩

end Sys2Proof.Machine
end

section
/-! PROOFS. Counters of fixed width, the caller's requests as a step, the reset state and the numbered registers. -/

namespace Sys2Proof.Machine

open Sys2Proof.Safety

/-! ### Counters past their width -/

/-- An attempt is RUN_STEP's meaning under what it needs (spec/43_pipeline.md R171). -/
theorem exec_runStep_of_attempting {s : State} {c : RunConfig} (h : Attempting s c) : exec .runStep s = attempt c s :=
  execRunStep_of h.admitted h.running h.channel h.config

/-- An increment past the width does not fit (spec/10_state.md R31). -/
theorem counterFits_past {width : Option Nat} {w n : Nat} (hw : width = some w) (h : n + 1 > 2 ^ w - 1) :
    counterFits width n = false := by
  subst hw
  exact decide_eq_false (by omega)

/-- Reading a window and its timestamp changes no counter. -/
theorem counterValue_windowRead (k : Counter) (c : RunConfig) (f : ByteFrame) (s : State) :
    counterValue k (windowRead c f s) = counterValue k s := by
  rcases windowRead_eq c f s with ⟨_, _, h⟩ | ⟨_, _, h⟩ <;> rw [h] <;> cases k <;> simp [counterValue]

/-- A full window whose outcome's counter is at its width faults, naming the counter. -/
theorem attempt_full_overflow {s : State} {c : RunConfig} {k w : Nat} {f : ByteFrame} (hd : readDraw s = .bytes k)
    (hb : streamTake (min k 4) s = frameBytes f) (hw : s.params.counterWidth = some w) :
    (f.b0 ≠ Config.header → s.headerMismatches + 1 > 2 ^ w - 1 →
      attempt c s = .fault (.counterOverflow .headerMismatches)) ∧
    (f.b0 = Config.header → crcOf s.params.crcTable [f.b0, f.b1, f.b2] ≠ f.b3 → s.checksumFailures + 1 > 2 ^ w - 1 →
      attempt c s = .fault (.counterOverflow .checksumFailures)) ∧
    (f.b0 = Config.header → crcOf s.params.crcTable [f.b0, f.b1, f.b2] = f.b3 → s.valid + 1 > 2 ^ w - 1 →
      attempt c s = .fault (.counterOverflow .valid)) := by
  have hfull : ∀ k, counterValue k s + 1 > 2 ^ w - 1 →
      counterFits (windowRead c f s).params.counterWidth (counterValue k (windowRead c f s)) = false := by
    intro k h
    rw [windowRead_params, counterValue_windowRead]
    exact counterFits_past hw h
  rw [attempt_full hd hb]
  rcases decodeFrame_cases s.params.crcTable f with ⟨h0, hf⟩ | ⟨h0, h3, hf⟩ | ⟨h0, h3, hf⟩ <;> rw [hf]
  · exact ⟨fun _ h => endAttempt_overflow rfl (hfull .headerMismatches h), fun h => absurd h h0, fun h => absurd h h0⟩
  · exact ⟨absurd h0, fun _ _ h => endAttempt_overflow rfl (hfull .checksumFailures h), fun _ h => absurd h h3⟩
  · exact ⟨absurd h0, fun _ h => absurd h3 h, fun _ _ h => endAttempt_overflow rfl (hfull .valid h)⟩

/-- With unbounded counters every attempt completes (spec/60_exceptions.md R228). -/
theorem attempt_completes {s : State} (c : RunConfig) (hw : s.params.counterWidth = none) : ∃ t, attempt c s = .next t := by
  have hend : ∀ (o : AttemptOutcome) (u : State), u.params = s.params → ∃ t, endAttempt o u = .next t :=
    fun o u hu => ⟨_, endAttempt_of fun k _ => by rw [hu, hw]; rfl⟩
  rcases pullFrame_cases s with ⟨hd, _⟩ | ⟨k, n, hd, rfl, hn, _⟩ | ⟨k, f, hd, hb, _⟩
  · rw [attempt_failed hd]
    exact hend _ _ (afterReadDraw_params s)
  · rw [attempt_short hd hn]
    exact hend _ _ (afterReadDraw_params s)
  · rw [attempt_full hd hb]
    rcases decodeFrame_cases s.params.crcTable f with ⟨_, hf⟩ | ⟨_, _, hf⟩ | ⟨_, _, hf⟩ <;> rw [hf]
    · exact hend _ _ (windowRead_params c f s)
    · exact hend _ _ (windowRead_params c f s)
    · exact hend _ _ (windowRead_params c f s)

/-- Settles O22: each outcome's counter is tested at its increment, and an unbounded one always fits. -/
theorem counterOverflowFaults : Obligations.CounterOverflowFaults := by
  refine ⟨fun s c k w f ha hd hb hw => ?_, fun s c k w ha hd hn hw hfull => ?_, fun s c ha hw => ?_⟩
  · rw [exec_runStep_of_attempting ha]
    obtain ⟨hheader, hchecksum, hvalid⟩ := attempt_full_overflow (c := c) hd hb hw
    exact ⟨hheader, fun h0 h3 => hchecksum h0 (by rwa [h0]), fun h0 h3 => hvalid h0 (by rwa [h0])⟩
  · rw [exec_runStep_of_attempting ha, attempt_short hd hn]
    refine endAttempt_overflow (c := .timeouts) rfl ?_
    simpa [counterValue] using counterFits_past hw hfull
  · rw [exec_runStep_of_attempting ha]
    exact attempt_completes c hw

/-! ### The caller's request as a step -/

/-- A step that fetches a caller's operation is that operation and the caller's turn. -/
theorem step_of_fetch_caller {s s1 : State} {i : Instr} (hf : fetch s = .op i s1) (hi : i.issuer = .caller) :
    step s = thenCaller (exec i s1) := by
  unfold step engineStep
  rw [hf]
  exact congrArg thenCaller (afterOp_caller hi _)

/-- Settles O34: the fetch takes the image first, then the requests by value, and is idle with neither. -/
theorem stepRunsTheCallersRequest : Obligations.StepRunsTheCallersRequest := by
  refine ⟨fun s i rest he hp hd => ?_, fun s i rest he hp hl hr hi => ?_, fun s he hp hl hr => ?_⟩
  · have hl : s.program ≠ [] := by intro hl; rw [hl] at hd; cases hd
    have hf := fetch_caller he hp hl
    rw [fetchFrom_eq_op.mpr ⟨rest, hd, rfl⟩] at hf
    exact step_of_fetch_caller hf (decodeOp_caller_issuer hd)
  · exact step_of_fetch_caller ((fetch_request he hp hl hr).trans (takeRequest_of hi _)) hi
  · unfold step engineStep
    rw [fetch_idle he hp hl hr]
    rfl

/-! ### The reset state -/

/-- Settles O37: State.reset holds R38's values. -/
theorem resetStateIsAsListed : Obligations.ResetStateIsAsListed :=
  ⟨rfl, rfl, rfl, rfl, rfl, rfl, rfl, rfl, rfl, rfl, rfl, rfl, rfl, rfl, rfl⟩

/-- T07's 256 entries take all 256 values (spec/40_crc8.md R103, R104). -/
theorem isPermutation_t07 : isPermutation Config.t07 = true := by decide +kernel

theorem lifecycle_reset : Lifecycle State.reset where
  admitted := isPermutation_t07
  accFree := rfl
  openUntilStop := by simp [State.reset]
  reasonAtStop := by simp [State.reset]
  latchedInRun h := by cases h
  wholeFrames _ h := by cases h
  engineOwn := .inl rfl
  beforeRun _ := ⟨rfl, rfl, rfl, rfl, rfl, rfl, rfl, rfl⟩

theorem accounts_reset : Accounts State.reset where
  validTally := rfl
  headerTally := rfl
  checksumTally := rfl
  timeoutTally := rfl
  sinkIsTrace := rfl
  classified _ h := by cases h
  closesOnce := rfl
  closesLast h := by cases h
  cursorAtLeast := le_rfl
  cursorAtMost := le_rfl

theorem timestamped_reset : Timestamped State.reset where
  whenEnabled _ h := by cases h
  neverBack := List.Pairwise.nil
  clockAhead _ h := by cases h

/-- Settles O38: T07 is admitted, and at reset nothing is counted, traced, delivered or latched. -/
theorem resetMeetsTheInvariants : Obligations.ResetMeetsTheInvariants :=
  ⟨lifecycle_reset, accounts_reset, fun _ _ h => (by cases h), timestamped_reset⟩

/-! ### The numbered registers -/

/-- The latched registers show what RUN latched (spec/10_state.md R33, R38). -/
theorem latched_of {s : State} {c : RunConfig} (h : s.runConfig = some c) (k : RunConfig → RegValue) : latched s k = k c := by
  simp [latched, h]

theorem latched_noValue {s : State} (h : s.runConfig = none) (k : RunConfig → RegValue) : latched s k = .noValue := by
  simp [latched, h]

/-- Settles O57: each register is its field in R36's code; the latched ones go by whether RUN has latched. -/
theorem numberedRegistersShowTheState : Obligations.NumberedRegistersShowTheState := by
  intro s
  refine ⟨?_, ?_, rfl, rfl, rfl, rfl, rfl, ?_, regValue_bit _, readReg_c3 s, rfl, rfl, fun h => ?_, fun b ts h => ?_⟩
  · show RegValue.nat (phaseCode s.phase) = _
    cases s.phase <;> rfl
  · show RegValue.nat (stopReasonCode s.stopReason) = _
    cases s.stopReason <;> rfl
  · show RegValue.nat (match s.syncState with | .aligned => 0) = _
    cases s.syncState; rfl
  · exact ⟨latched_noValue h _, latched_noValue h _, latched_noValue h _⟩
  · exact ⟨latched_of h _, (latched_of h _).trans (regValue_bit ts), latched_of h _⟩

end Sys2Proof.Machine
end

section
/-! PROOFS. The input stream by position, and consecutive reads. -/

namespace Sys2Proof.Machine

/-- The stream's byte `i` places past CURSOR: the listed one, else the free byte of its position (spec/20_memory.md
R56; log 3). -/
def streamByte (s : State) (i : Nat) : Byte := s.input[i]?.getD (Config.freeByte (s.cursor + i))

/-- A read from a stream without an end takes the bytes of the next positions. -/
theorem streamTake_endless {s : State} (h : s.sourceEnds = false) (k : Nat) :
    streamTake k s = (List.range k).map (streamByte s) := by
  refine List.ext_getElem (by simp [streamTake_length_endless h]) fun i _ hi => ?_
  have hk : i < k := by simpa using hi
  rcases Nat.lt_or_ge i s.input.length with hl | hl
  · simp [streamTake, streamByte, h, hk, hl]
  · have hpos : s.cursor + s.input.length + (i - min k s.input.length) = s.cursor + i := by omega
    simp [streamTake, streamByte, h, hl, hpos]

/-- Consuming moves the positions along (spec/20_memory.md R57). -/
theorem streamByte_consume (n : Nat) (s : State) (i : Nat) : streamByte (consume n s) i = streamByte s (n + i) := by
  simp [streamByte, Nat.add_assoc]

/-- Without an end, reading `j` bytes and then `k` more takes the next `j + k`. -/
theorem streamTake_add_endless {s : State} (h : s.sourceEnds = false) (j k : Nat) :
    streamTake (j + k) s = streamTake j s ++ streamTake k (consume j s) := by
  have hc : (consume j s).sourceEnds = false := h
  simp [streamTake_endless h, streamTake_endless hc, List.range_add, streamByte_consume]

/-- From an exhausted source the second read asks for what the first left short and goes on where it stopped. -/
theorem streamTake_add_ended {s : State} (h : s.sourceEnds = true) (j k : Nat) :
    streamTake (j + k) s =
      streamTake j s ++ streamTake (j + k - (streamTake j s).length) (consume (streamTake j s).length s) := by
  have hle := streamTake_length_le j s
  have hfirst : s.input.take (streamTake j s).length = streamTake j s := by
    simp [streamTake_ended h, List.take_eq_take_iff]
  generalize (streamTake j s).length = n at hle hfirst ⊢
  have hc : (consume n s).sourceEnds = true := h
  calc streamTake (j + k) s
    _ = s.input.take (n + (j + k - n)) := by rw [streamTake_ended h, Nat.add_sub_cancel' (by omega)]
    _ = s.input.take n ++ (s.input.drop n).take (j + k - n) := List.take_add
    _ = streamTake j s ++ streamTake (j + k - n) (consume n s) := by rw [hfirst, streamTake_ended hc, consume_input]

/-- Settles O14: a stream without an end is read by position, and an ended one is its list cut where a read stops. -/
theorem readsTakeConsecutiveParts : Obligations.ReadsTakeConsecutiveParts := by
  refine ⟨fun _ _ => streamTake_listed, fun _ _ => streamTake_length_endless, fun _ _ => streamTake_ended,
    fun s j k => ?_⟩
  cases h : s.sourceEnds with
  | true => exact streamTake_add_ended h j k
  | false =>
    rw [streamTake_length_endless h, Nat.add_sub_cancel_left]
    exact streamTake_add_endless h j k

end Sys2Proof.Machine
end

section
/-! PROOFS. The program image: decoding and encoding undo each other, and the codes the decoder refuses. -/

namespace Sys2Proof

/-! ### The decoder by select code (spec/30_encoding.md R90, R94) -/

theorem decodeOp_crcStep (who : Issuer) (acc b : Byte) (rest : List Byte) :
    decodeOp who (0x01 :: acc :: b :: rest) = .ok (.crcStep acc b, rest) := rfl

theorem decodeOp_crcCompute (who : Issuer) (l : List Byte) : decodeOp who (0x02 :: l) = decodeCrcCompute l := rfl

theorem decodeOp_decode (who : Issuer) (b0 b1 b2 b3 : Byte) (rest : List Byte) :
    decodeOp who (0x03 :: b0 :: b1 :: b2 :: b3 :: rest) = .ok (.decode b0 b1 b2 b3, rest) := rfl

theorem decodeOp_classify (who : Issuer) (lo hi : Byte) (rest : List Byte) :
    decodeOp who (0x04 :: lo :: hi :: rest) = .ok (.classify (code16 lo hi), rest) := rfl

theorem decodeOp_run (who : Issuer) (l : List Byte) : decodeOp who (0x07 :: l) = decodeRun l := rfl

theorem decodeOp_initMode (who : Issuer) (l : List Byte) : decodeOp who (0x08 :: l) = decodeInitMode l := rfl

/-- The codes of R93 are read from the engine and refused from the caller, whatever follows them. -/
theorem decodeOp_internal (who : Issuer) (rest : List Byte) :
    decodeOp who (0x05 :: rest) = decodeInternal who 0x05 .nextFrame rest ∧
    decodeOp who (0x06 :: rest) = decodeInternal who 0x06 .runStep rest ∧
    decodeOp who (0x09 :: rest) = decodeInternal who 0x09 .close rest := ⟨rfl, rfl, rfl⟩

/-- A code that R90 gives to no operation is refused from either issuer. -/
theorem decodeOp_unused (who : Issuer) {code : Byte} (rest : List Byte) (h : code.toNat = 0 ∨ 10 ≤ code.toNat) :
    decodeOp who (code :: rest) = .error (.unusedCode code) := by
  simp only [decodeOp]
  split
  any_goals omega
  rfl

/-! ### Decoding an encoding -/

/-- The counted data bytes are read back, up to the 255 that the count byte can say. -/
theorem decodeCrcCompute_operandBytes {data : List Byte} {len : Nat} (rest : List Byte) (hl : len ≤ data.length)
    (hd : data.length ≤ 255) :
    decodeCrcCompute (operandBytes (.crcCompute data len) ++ rest) = .ok (.crcCompute data len, rest) := by
  have hn : (byteOf data.length 0).toNat = data.length := byteOf_small (by omega)
  have hlen : (byteOf len 0).toNat = len := byteOf_small (by omega)
  simp [operandBytes, decodeCrcCompute, hn, hlen, hl]

/-- RUN's flag byte says whether there is a budget; without one the budget bytes are 0. -/
theorem decodeRun_operandBytes {budget : Option Nat} (ts : Bool) (rest : List Byte) (hb : budget.getD 0 < 4294967296) :
    decodeRun (operandBytes (.run budget ts .wholeFrameDiscard) ++ rest) =
      .ok (.run budget ts .wholeFrameDiscard, rest) := by
  obtain ⟨hlt, h0, h1⟩ := runFlags_reads budget ts
  have hreserved : ¬ 4 ≤ (runFlags budget ts).toNat := by omega
  have hle := le32_byteOf hb
  simp only [operandBytes, List.cons_append, List.nil_append, decodeRun, if_neg hreserved, h0, h1, hle]
  cases budget with
  | none => rfl
  | some n => rfl

theorem decodeInitMode_operandBytes (mode : Mode) (rest : List Byte) :
    decodeInitMode (operandBytes (.initMode mode) ++ rest) = .ok (.initMode mode, rest) := by
  cases mode <;> rfl

/-- Settles O30: by the operation; the operand fields of R94 read back as the numbers they were written from. -/
theorem decodeUndoesEncode : Obligations.DecodeUndoesEncode := by
  intro i rest hw hi
  obtain ⟨h5, h6, h9⟩ := decodeOp_internal .engine rest
  cases i with
  | crcStep acc b => exact decodeOp_crcStep .caller acc b rest
  | crcCompute data len =>
    exact (decodeOp_crcCompute .caller _).trans
      (decodeCrcCompute_operandBytes rest (of_decide_eq_true hw) (of_decide_eq_true hi))
  | decode b0 b1 b2 b3 => exact decodeOp_decode .caller b0 b1 b2 b3 rest
  | classify code =>
    have h := decodeOp_classify .caller (byteOf code.toNat 0) (byteOf code.toNat 1) rest
    rwa [code16_byteOf] at h
  | nextFrame => exact h5
  | runStep => exact h6
  | run budget ts resync =>
    obtain rfl : resync = .wholeFrameDiscard := of_decide_eq_true hw
    exact (decodeOp_run .caller _).trans (decodeRun_operandBytes ts rest (of_decide_eq_true hi))
  | initMode mode => exact (decodeOp_initMode .caller _).trans (decodeInitMode_operandBytes mode rest)
  | close => exact h9

/-! ### Encoding what was decoded -/

/-- The bytes after the select code are those of operation `i`, which an image can hold, and then `rest`. -/
structure ReadsOperands (l : List Byte) (i : Instr) (rest : List Byte) : Prop where
  bytes : l = operandBytes i ++ rest
  wellFormed : i.wellFormed = true
  inImage : i.inImage = true

theorem decodeCrcCompute_eq_ok {l rest : List Byte} {i : Instr} (h : decodeCrcCompute l = .ok (i, rest)) :
    opCode i = 0x02 ∧ ReadsOperands l i rest := by
  unfold decodeCrcCompute at h
  split at h
  · next n len tail =>
    split at h
    · cases h
    · next hlen =>
      split at h
      · cases h
      · next hn =>
        cases h
        have hcount : (tail.take n.toNat).length = n.toNat := by rw [List.length_take]; omega
        have hbound := n.isLt
        refine ⟨rfl, ?_, ?_, ?_⟩
        · simp [operandBytes, hcount, byteOf]
        · exact decide_eq_true (by omega)
        · exact decide_eq_true (by omega)
  · cases h

theorem decodeRun_eq_ok {l rest : List Byte} {i : Instr} (h : decodeRun l = .ok (i, rest)) :
    opCode i = 0x07 ∧ ReadsOperands l i rest := by
  unfold decodeRun at h
  split at h
  · next f c0 c1 c2 c3 tail =>
    obtain ⟨h0, h1, h2, h3⟩ := byteOf_le32 c0 c1 c2 c3
    split at h
    · cases h
    · next hf =>
      split at h
      · next hbit =>
        cases h
        have hflags := runFlags_of_bits (f := f) (by omega) (some (le32 c0 c1 c2 c3)) hbit
        refine ⟨rfl, ?_, rfl, decide_eq_true (le32_lt c0 c1 c2 c3)⟩
        simp only [operandBytes, Option.getD_some, hflags, h0, h1, h2, h3, List.cons_append, List.nil_append]
      · next hbit =>
        split at h
        · next hzero =>
          cases h
          have hflags := runFlags_of_bits (f := f) (by omega) none (by simpa using hbit)
          rw [hzero] at h0 h1 h2 h3
          refine ⟨rfl, ?_, rfl, rfl⟩
          simp only [operandBytes, Option.getD_none, hflags, h0, h1, h2, h3, List.cons_append, List.nil_append]
        · cases h
  · cases h

theorem decodeInitMode_eq_ok {l rest : List Byte} {i : Instr} (h : decodeInitMode l = .ok (i, rest)) :
    opCode i = 0x08 ∧ ReadsOperands l i rest := by
  unfold decodeInitMode at h
  split at h
  · split at h
    · next hm => cases h; subst hm; exact ⟨rfl, rfl, rfl, rfl⟩
    · split at h
      · next hm => cases h; subst hm; exact ⟨rfl, rfl, rfl, rfl⟩
      · cases h
  · cases h

theorem decodeInternal_eq_ok {who : Issuer} {code : Byte} {i j : Instr} {l rest : List Byte}
    (h : decodeInternal who code j l = .ok (i, rest)) : i = j ∧ rest = l := by
  cases who with
  | engine => cases h; exact ⟨rfl, rfl⟩
  | caller => cases h

/-- Whatever the decoder accepts starts with the operation's select code and goes on with its operand bytes. -/
theorem decodeOp_eq_ok {who : Issuer} {code : Byte} {l rest : List Byte} {i : Instr}
    (h : decodeOp who (code :: l) = .ok (i, rest)) : code = opCode i ∧ ReadsOperands l i rest := by
  have hcode : ∀ {b : Byte}, opCode i = b → code.toNat = b.toNat → code = opCode i :=
    fun hb hn => (BitVec.eq_of_toNat_eq hn).trans hb.symm
  simp only [decodeOp] at h
  split at h
  · next hn =>
    split at h
    · cases h; exact ⟨BitVec.eq_of_toNat_eq hn, rfl, rfl, rfl⟩
    · cases h
  · next hn =>
    obtain ⟨hb, hr⟩ := decodeCrcCompute_eq_ok h
    exact ⟨hcode hb hn, hr⟩
  · next hn =>
    split at h
    · cases h; exact ⟨BitVec.eq_of_toNat_eq hn, rfl, rfl, rfl⟩
    · cases h
  · next hn =>
    split at h
    · next lo hi _ =>
      cases h
      obtain ⟨hlo, hhi⟩ := byteOf_code16 lo hi
      exact ⟨BitVec.eq_of_toNat_eq hn, by simp [operandBytes, hlo, hhi], rfl, rfl⟩
    · cases h
  · next hn =>
    obtain ⟨rfl, rfl⟩ := decodeInternal_eq_ok h
    exact ⟨BitVec.eq_of_toNat_eq hn, rfl, rfl, rfl⟩
  · next hn =>
    obtain ⟨rfl, rfl⟩ := decodeInternal_eq_ok h
    exact ⟨BitVec.eq_of_toNat_eq hn, rfl, rfl, rfl⟩
  · next hn =>
    obtain ⟨hb, hr⟩ := decodeRun_eq_ok h
    exact ⟨hcode hb hn, hr⟩
  · next hn =>
    obtain ⟨hb, hr⟩ := decodeInitMode_eq_ok h
    exact ⟨hcode hb hn, hr⟩
  · next hn =>
    obtain ⟨rfl, rfl⟩ := decodeInternal_eq_ok h
    exact ⟨BitVec.eq_of_toNat_eq hn, rfl, rfl, rfl⟩
  · cases h

/-- Settles O31: the select code is the operation's, its operand bytes follow, and R93's codes fail from the caller. -/
theorem decodeAcceptsOnlyEncodings : Obligations.DecodeAcceptsOnlyEncodings := by
  intro who bytes rest i h
  cases bytes with
  | nil => cases h
  | cons code l =>
    obtain ⟨rfl, hbytes, hw, hi⟩ := decodeOp_eq_ok h
    refine ⟨by rw [hbytes]; rfl, hw, hi, ?_⟩
    rintro rfl
    exact Machine.decodeOp_caller_issuer h

/-- Settles O33: the rows of R94's table, evaluated. -/
theorem writtenWordsDecode : Obligations.WrittenWordsDecode := by
  unfold Obligations.WrittenWordsDecode
  decide

end Sys2Proof

namespace Sys2Proof.Machine

/-! ### Refused requests as a step -/

theorem step_of_fetch_reject {s : State} {r : Reject} (h : fetch s = .reject r) : step s = .refused (.undecodable r) := by
  unfold step engineStep
  rw [h]
  rfl

theorem fetchFrom_reject {who : Issuer} {bytes : List Byte} {r : Reject} (h : decodeOp who bytes = .error r)
    (taken : List Byte → State) : fetchFrom who bytes taken = .reject r := by
  unfold fetchFrom
  rw [h]

theorem takeRequest_reject {i : Instr} (h : i.issuer = .engine) (u : State) :
    takeRequest i u = .reject (.engineInternal (opCode i)) := by
  unfold takeRequest
  rw [h]

/-- Settles O32: the decoder's refusals by code, and a step whose fetch refuses. -/
theorem unusedAndInternalCodesAreRefused : Obligations.UnusedAndInternalCodesAreRefused := by
  refine ⟨fun who code rest h => ?_, fun code rest h => ?_, fun s r he hp hl hd => ?_, fun s i code rest he hp hl hr hi => ?_⟩
  · exact decodeOp_unused who rest (h.imp_left fun h0 => by rw [h0]; rfl)
  · obtain ⟨h5, h6, h9⟩ := decodeOp_internal .caller rest
    obtain rfl | rfl | rfl := h
    · exact h5
    · exact h6
    · exact h9
  · exact step_of_fetch_reject ((fetch_caller he hp hl).trans (fetchFrom_reject hd _))
  · have hinternal : i.issuer = .engine ∧ opCode i = code := by
      obtain ⟨rfl, rfl⟩ | ⟨rfl, rfl⟩ | ⟨rfl, rfl⟩ := hi <;> exact ⟨rfl, rfl⟩
    obtain ⟨hissuer, rfl⟩ := hinternal
    exact step_of_fetch_reject ((fetch_request he hp hl hr).trans (takeRequest_reject hissuer _))

end Sys2Proof.Machine
end

section
/-! PROOFS. The engine's own request as a step, the mode-select command, and the reference sink's records. -/

namespace Sys2Proof.Machine

open Sys2Proof.Safety

/-! ### The engine's request as a step -/

/-- A step with an engine request is its operation in the state with the slot emptied, what RUN's loop adds, and the
caller's turn. -/
theorem step_of_engineReq {s : State} {i : Instr} {rest : List Byte} (he : s.engineReq ≠ [])
    (hd : decodeOp .engine s.engineReq = .ok (i, rest)) :
    step s = thenCaller (afterOp i (exec i { s with engineReq := [] })) := by
  have hf : fetch s = .op i { s with engineReq := [] } := (fetch_engine he).trans (fetchFrom_eq_op.mpr ⟨rest, hd, rfl⟩)
  unfold step engineStep
  rw [hf]

/-- An attempt leaves the channel open: RUN's stop closes it. -/
theorem exec_runStep_channelOpen {s t : State} (h : exec .runStep s = .next t) : t.channelOpen = true := by
  obtain ⟨_, _, ho, _⟩ := execRunStep_eq_next h
  obtain ⟨c, o, _, a⟩ := execRunStep_attempted h
  exact a.channelOpen.trans ho

theorem afterAttempt_goes_on {s : State} (h : s.result ≠ some (.attempt .transportFailure)) : afterAttempt s = .next s := by
  unfold afterAttempt
  split
  · next hr => exact absurd hr h
  · rfl

theorem afterAttempt_stops {s : State} (h : s.result = some (.attempt .transportFailure)) :
    afterAttempt s = stopRun .transportFailure s := by
  unfold afterAttempt
  rw [h]

/-- Settles O35: RUN_STEP's outcome decides whether RUN stops; every other operation is the step's own answer. -/
theorem stepRunsTheEnginesRequest : Obligations.StepRunsTheEnginesRequest := by
  intro s i rest he hd
  have hstep := step_of_engineReq he hd
  have hrun : i = .runStep → step s = thenCaller (andThen (exec .runStep { s with engineReq := [] }) afterAttempt) := by
    rintro rfl
    exact hstep
  refine ⟨fun hi => ?_, fun r hr hi => ?_, fun r hr hi => ?_, fun t ht hi => ⟨fun hn => ?_, fun hf => ?_⟩⟩
  · rw [hstep, afterOp_of_ne hi]
  · rw [hrun hi, hr]; rfl
  · rw [hrun hi, hr]; rfl
  · rw [hrun hi, ht, andThen_next_left, afterAttempt_goes_on hn, thenCaller_next]
  · rw [hrun hi, ht, andThen_next_left, afterAttempt_stops hf, stopRun, stopWith_of (exec_runStep_channelOpen ht)]
    rfl

/-! ### The mode-select command -/

/-- Under T07, CRC_COMPUTE over a whole byte list (spec/40_crc8.md R102, R104). -/
theorem exec_crcCompute_t07 {s : State} (ht : s.params.crcTable = Config.t07) (data : List Byte) :
    exec (.crcCompute data data.length) s = .next { s with acc := none, result := some (.crc (crcOf Config.t07 data)) } := by
  have hp : isPermutation s.params.crcTable = true := ht ▸ isPermutation_t07
  have h := execCrcCompute_of hp (le_refl data.length)
  rwa [List.take_length, ht] at h

/-- R78's two checksums. -/
theorem crcOf_t07_modeCommand :
    crcOf Config.t07 [0x00, 0x11, 0x02] = 0x4C ∧ crcOf Config.t07 [0x00, 0x11, 0x01] = 0x45 := by decide +kernel

/-- Settles O9: CRC_COMPUTE under T07, at R78's bytes. -/
theorem modeCommandEndsInItsChecksum : Obligations.ModeCommandEndsInItsChecksum := by
  intro s ht
  obtain ⟨h02, h01⟩ := crcOf_t07_modeCommand
  exact ⟨h02 ▸ exec_crcCompute_t07 ht [0x00, 0x11, 0x02], h01 ▸ exec_crcCompute_t07 ht [0x00, 0x11, 0x01]⟩

/-- INIT_MODE with its write answered Ok (spec/44_mode_init.md R200). -/
theorem execInitMode_of_ok {s : State} (mode : Mode) (hp : isPermutation s.params.crcTable = true) (hr : s.phase = .reset)
    (ho : s.channelOpen = true) (hw : writeDraw s = .ok) :
    execInitMode mode s = .next { afterWriteDraw s with
      output := s.output ++ frameBytes (modeCommand mode s.params)
      events := s.events ++ [.write (frameBytes (modeCommand mode s.params)) .ok]
      phase := .ready
      result := some (.init (.ok ())) } := by
  unfold execInitMode
  rw [needTable_of hp, needPhase_of hr, needChannel_of ho]
  simp [sendCommand, chanWrite, hw, finish, logEvent]

/-- Settles O27: each mode sends its command's four bytes, and this spec's two commands are R77's bytes. -/
theorem initModeSendsTheCommand : Obligations.InitModeSendsTheCommand := by
  refine ⟨fun s mode hp hr ho hw => ?_, rfl, rfl⟩
  have h := execInitMode_of_ok mode hp hr ho hw
  cases mode <;> exact h

/-! ### The reference sink's records -/

theorem append_byte_toNat {n : Nat} (hi : BitVec n) (lo : Byte) : (hi ++ lo).toNat = hi.toNat * 256 + lo.toNat := by
  rw [BitVec.toNat_append, ← Nat.shiftLeft_add_eq_or_of_lt lo.isLt, Nat.shiftLeft_eq]

/-- A 32-bit word joined from four bytes is their little-endian number. -/
theorem append_four_bytes_toNat (d0 d1 d2 d3 : Byte) : (d3 ++ d2 ++ d1 ++ d0).toNat = le32 d0 d1 d2 d3 := by
  simp only [append_byte_toNat, le32]
  omega

theorem deltaRecord_append (d0 d1 d2 d3 : Byte) : deltaRecord (d3 ++ d2 ++ d1 ++ d0) = [d0, d1, d2, d3] := by
  obtain ⟨h0, h1, h2, h3⟩ := byteOf_le32 d0 d1 d2 d3
  rw [deltaRecord, append_four_bytes_toNat, h0, h1, h2, h3]

theorem distanceRecord_append (lo hi : Byte) (cl : Classification) (at_ : Option Nat) :
    distanceRecord ⟨hi ++ lo, cl, at_⟩ = [lo, hi] := by
  obtain ⟨hlo, hhi⟩ := byteOf_code16 lo hi
  show [byteOf (code16 lo hi).toNat 0, byteOf (code16 lo hi).toNat 1] = _
  rw [hlo, hhi]

@[simp] theorem distanceRecord_length (x : Sample) : (distanceRecord x).length = 2 := rfl

@[simp] theorem deltaRecord_length (d : BitVec 32) : (deltaRecord d).length = 4 := rfl

/-- Settles O59: the byte fields of a joined word are its bytes, and every record has one length. -/
theorem sinkRecordsAreLittleEndian : Obligations.SinkRecordsAreLittleEndian := by
  refine ⟨distanceRecord_append, deltaRecord_append, fun s x => ?_, fun s => ⟨?_, ?_⟩⟩
  · simp [distanceLog]
  · simp [distanceLog, List.length_flatMap, Nat.mul_comm]
  · simp [deltaLog, List.length_flatMap, Nat.mul_comm]

end Sys2Proof.Machine
end

