-- ==== Sys2Proof/Proofs/Crc8.lean ====
section
/-! PROOFS. The CRC-8 engine: what CRC_STEP and CRC_COMPUTE answer, what a checksum depends on and detects, and what T07
makes of it (spec/40_crc8.md). -/

namespace Sys2Proof.Machine

/-! ### The table -/

/-- Every 8-bit index names an entry (spec/20_memory.md R52). -/
theorem getElem?_toList_eq_tableRead (t : Table) (i : Byte) : t.toList[i.toNat]? = some (tableRead t i) := by
  have hi : i.toNat < t.toList.length := Vector.length_toList ▸ i.isLt
  rw [List.getElem?_eq_getElem hi, Vector.getElem_toList]
  rfl

/-- An admitted table takes every value once (spec/40_crc8.md R103). -/
theorem isPermutation_iff_bijective (t : Table) : isPermutation t = true ↔ Function.Bijective (tableRead t) :=
  ⟨fun h => ⟨tableRead_injective h, (isPermutation_iff_surjective t).mp h⟩,
    fun h => (isPermutation_iff_surjective t).mpr h.surjective⟩

/-- Every operation asks for an admitted table before anything else (spec/60_exceptions.md R227; log 13). -/
theorem exec_refused_of_not_permutation {s : State} (h : ¬ isPermutation s.params.crcTable = true) (i : Instr) :
    exec i s = .refused .tableNotPermutation := by
  cases i <;> exact needTable_refused h _

/-- Settles O8: a permutation is a bijection of the 8-bit values, and every operation tests for one first. -/
theorem onlyPermutationTablesAreAdmitted : Obligations.OnlyPermutationTablesAreAdmitted :=
  ⟨fun t => (isPermutation_iff_bijective t).trans (Function.bijective_iff_existsUnique _),
    fun i _ h => exec_refused_of_not_permutation h i⟩

/-! ### T07 -/

/-- T07's listing is its generation law (spec/40_crc8.md R104, R105). -/
theorem tableRead_t07 : ∀ i : Byte, tableRead Config.t07 i = crcShift 8 i := by decide +kernel

theorem tableRead_t07_zero : tableRead Config.t07 0x00 = 0x00 := tableRead_t07 0x00

/-- Settles O6: the 256 entries, evaluated. -/
theorem defaultTableFollowsItsLaw : Obligations.DefaultTableFollowsItsLaw := ⟨tableRead_t07, isPermutation_t07⟩

/-- One update under T07 is eight shifts (spec/40_crc8.md R106). -/
theorem crcUpdate_t07 : crcUpdate Config.t07 = fun a b => crcShift 8 (a ^^^ b) :=
  funext fun a => funext fun b => tableRead_t07 (a ^^^ b)

theorem crcOf_t07 (data : List Byte) : crcOf Config.t07 data = bitwiseCrc data := by
  rw [crcOf, crcUpdate_t07, bitwiseCrc]

/-- Settles O7: the fold of T07's update is the fold of the eight shifts. -/
theorem defaultCrcIsTheBitwiseCrc : Obligations.DefaultCrcIsTheBitwiseCrc := by
  intro s data ht
  rw [exec_crcCompute_t07 ht, crcOf_t07]
  rfl

/-! ### CRC_STEP -/

/-- Equal bytes read entry 0 (spec/40_crc8.md R101). -/
theorem crcUpdate_self (t : Table) (b : Byte) : crcUpdate t b b = tableRead t 0x00 :=
  congrArg (tableRead t) BitVec.xor_self

/-- CRC_STEP reads `acc ^ b` alone (spec/40_crc8.md R101). -/
theorem crcUpdate_xor_zero (t : Table) (acc b : Byte) : crcUpdate t (acc ^^^ b) 0x00 = crcUpdate t acc b :=
  congrArg (tableRead t) BitVec.xor_zero

theorem exec_crcStep_of {s : State} (hp : isPermutation s.params.crcTable = true) (acc b : Byte) :
    exec (.crcStep acc b) s = .next { s with result := some (.crc (crcUpdate s.params.crcTable acc b)) } :=
  needTable_of hp _

theorem exec_crcStep_xor_zero (s : State) (acc b : Byte) :
    exec (.crcStep acc b) s = exec (.crcStep (acc ^^^ b) 0x00) s := by
  show execCrcStep acc b s = execCrcStep (acc ^^^ b) 0x00 s
  rw [execCrcStep, execCrcStep, crcUpdate_xor_zero]

/-- Settles O1: CRC_STEP is one update, which reads the table at `acc ^ b`. -/
theorem crcStepIsOneTableRead : Obligations.CrcStepIsOneTableRead := by
  refine ⟨fun s acc b hp => exec_crcStep_of hp acc b, getElem?_toList_eq_tableRead, fun s b hp => ?_,
    exec_crcStep_xor_zero, decodeOp_crcStep, tableRead_t07_zero, tableRead_t07 _⟩
  rw [exec_crcStep_of hp, crcUpdate_self]

/-! ### CRC_COMPUTE -/

theorem exec_crcCompute_of {s : State} {data : List Byte} {len : Nat} (hp : isPermutation s.params.crcTable = true)
    (hl : len ≤ data.length) :
    exec (.crcCompute data len) s =
      .next { s with acc := none, result := some (.crc (crcOf s.params.crcTable (data.take len))) } :=
  execCrcCompute_of hp hl

/-- CRC_COMPUTE over a whole sequence. -/
theorem exec_crcCompute_whole {s : State} {data : List Byte} {len : Nat} (hp : isPermutation s.params.crcTable = true)
    (hl : data.length = len) :
    exec (.crcCompute data len) s =
      .next { s with acc := none, result := some (.crc (crcOf s.params.crcTable data)) } := by
  rw [exec_crcCompute_of hp hl.ge, List.take_of_length_le hl.le]

theorem exec_crcCompute_beyond {s : State} {data : List Byte} {len : Nat} (hp : isPermutation s.params.crcTable = true)
    (hl : data.length < len) : exec (.crcCompute data len) s = .refused .lengthBeyondData := by
  show execCrcCompute data len s = _
  rw [execCrcCompute, needTable_of hp, if_pos hl]

/-- The counted data bytes are taken, and the rest of the image stays (spec/30_encoding.md R94). -/
theorem decodeOp_crcCompute_image (who : Issuer) {n len : Byte} {data : List Byte} (rest : List Byte)
    (hn : data.length = n.toNat) (hl : len.toNat ≤ n.toNat) :
    decodeOp who (0x02 :: n :: len :: (data ++ rest)) = .ok (.crcCompute data len.toNat, rest) := by
  have htake : (data ++ rest).take n.toNat = data := List.take_left' hn
  have hdrop : (data ++ rest).drop n.toNat = rest := List.drop_left' hn
  have hlong : ¬ (data ++ rest).length < n.toNat := by rw [List.length_append]; omega
  rw [decodeOp_crcCompute, decodeCrcCompute, if_neg (by omega), if_neg hlong, htake, hdrop]

/-- Under T07 a leading zero byte leaves the accumulator at 0 (spec/40_crc8.md R102). -/
theorem crcOf_t07_zero_cons (data : List Byte) : crcOf Config.t07 (0x00 :: data) = crcOf Config.t07 data := by
  rw [crcOf, List.foldl_cons, crcUpdate_self, tableRead_t07_zero, crcOf]

/-- R102's example. -/
theorem crcOf_t07_frame :
    crcOf Config.t07 [0x54] = 0xAB ∧ crcOf Config.t07 [0x54, 0x64] = 0x63 ∧ crcOf Config.t07 [0x54, 0x64, 0x00] = 0x2E := by
  decide +kernel

/-- Settles O2: ACC takes the fold from 0x00 and is emptied; a longer `len` fails the first test after the table's. -/
theorem crcComputeFoldsTheFirstBytes : Obligations.CrcComputeFoldsTheFirstBytes :=
  ⟨fun _ _ _ hp hl => exec_crcCompute_of hp hl,
    fun _ _ _ hp hl => exec_crcCompute_beyond hp hl,
    fun who _ _ _ rest hn hl => decodeOp_crcCompute_image who rest hn hl,
    fun _ data hp => exec_crcCompute_of hp (Nat.zero_le data.length),
    crcOf_t07_zero_cons, crcOf_t07_frame⟩

/-- Settles O3: both requests return the checksum of the same bytes under the same table. -/
theorem crcDependsOnItsBytesAlone : Obligations.CrcDependsOnItsBytesAlone := by
  intro s1 s2 d1 d2 len hp ht hl1 hl2 hd
  refine ⟨crcOf s1.params.crcTable (d1.take len), exec_crcCompute_of hp hl1, ?_⟩
  rw [ht, hd]
  exact exec_crcCompute_of (ht ▸ hp) hl2

/-! ### What a checksum detects -/

/-- A byte and the byte with bit `j` flipped differ at that bit. -/
theorem ne_xor_bit (b : Byte) {j : Nat} (hj : j < 8) : b ≠ b ^^^ (1#8 <<< j) := by
  intro he
  have hbit := congrArg (fun c : Byte => c.getLsbD j) he
  simp [hj] at hbit

/-- A sequence with one byte replaced by another value has another checksum (spec/40_crc8.md R107). -/
theorem crcOf_ne_crcOf_set {t : Table} (h : isPermutation t = true) {data : List Byte} {k : Nat} (hk : k < data.length)
    {b : Byte} (hb : data[k] ≠ b) : crcOf t data ≠ crcOf t (data.set k b) := by
  have hne := crcOf_ne_of_byte_ne h (data.take k) (data.drop (k + 1)) hb
  rw [List.set_eq_take_append_cons_drop, if_pos hk]
  rwa [List.getElem_cons_drop, List.take_append_drop] at hne

/-- Settles O4: the flipped byte is another byte, and one replaced byte changes the checksum. -/
theorem crcDetectsEverySingleBitFlip : Obligations.CrcDetectsEverySingleBitFlip := by
  intro s data k j hk hp hj
  exact ⟨_, _, exec_crcCompute_whole hp rfl, exec_crcCompute_whole hp List.length_set,
    crcOf_ne_crcOf_set hp hk (ne_xor_bit data[k] hj)⟩

/-- A sequence followed by its own checksum has the checksum entry 0 (spec/40_crc8.md R109). -/
theorem crcOf_append_self (t : Table) (data : List Byte) : crcOf t (data ++ [crcOf t data]) = tableRead t 0x00 := by
  rw [crcOf_concat, crcUpdate_self]

/-- Settles O5: the last update meets the checksum in ACC. -/
theorem crcResidueIsTheFirstEntry : Obligations.CrcResidueIsTheFirstEntry := by
  refine ⟨fun s data hp => ⟨crcOf s.params.crcTable data, exec_crcCompute_whole hp rfl, ?_⟩, tableRead_t07_zero⟩
  exact (exec_crcCompute_whole hp List.length_append).trans (by rw [crcOf_append_self])

end Sys2Proof.Machine
end

section
/-! PROOFS. The frame decoder: what CLASSIFY and DECODE answer, which frames DECODE rejects, and that a step delivers only
a frame that passed both checks (spec/41_frame_decoder.md). -/

namespace Sys2Proof.Machine

open Sys2Proof.Safety

/-! ### CLASSIFY -/

theorem exec_classify_of {s : State} (hp : isPermutation s.params.crcTable = true) (code : Code16) :
    exec (.classify code) s = .next { s with result := some (.classified (classify code)) } :=
  needTable_of hp _

/-- Every code but the three sentinels is a measurement of itself (spec/30_encoding.md R75). -/
theorem classify_of_not_sentinel {code : Code16} (h0 : code ≠ 0x0000) (h1 : code ≠ 0x0001) (h2 : code ≠ 0xFFFF) :
    classify code = .measurement code.toNat := by
  rw [classify, if_neg h0, if_neg h1, if_neg h2]

/-- The sentinels are the two ends of the code space (spec/30_encoding.md R75). -/
theorem classify_of_between {code : Code16} (hl : 2 ≤ code.toNat) (hu : code.toNat ≤ 65534) :
    classify code = .measurement code.toNat := by
  have hne : ∀ sentinel : Code16, sentinel.toNat < 2 ∨ 65534 < sentinel.toNat → code ≠ sentinel := by
    rintro _ h rfl
    omega
  exact classify_of_not_sentinel (hne _ (by decide)) (hne _ (by decide)) (hne _ (by decide))

/-- Settles O11: the code space is the three sentinels and the codes between them, and CLASSIFY returns the class alone. -/
theorem classifyFollowsTheCodeSpace : Obligations.ClassifyFollowsTheCodeSpace := by
  refine ⟨fun s hp => ⟨exec_classify_of hp _, exec_classify_of hp _, exec_classify_of hp _⟩,
    fun s code hp hl hu => ?_, decodeOp_classify⟩
  rw [exec_classify_of hp, classify_of_between hl hu]

/-! ### DECODE -/

theorem exec_decode_of {s : State} (hp : isPermutation s.params.crcTable = true) (b0 b1 b2 b3 : Byte) :
    exec (.decode b0 b1 b2 b3) s =
      .next { s with result := some (.decoded (decodeFrame s.params.crcTable ⟨b0, b1, b2, b3⟩)) } :=
  needTable_of hp _

/-- DECODE's sample for a frame (spec/41_frame_decoder.md R120): its code, the code's class, no timestamp. -/
def decodedSample (f : ByteFrame) : Sample :=
  { rawCode := f.b2 ++ f.b1, classification := classify (f.b2 ++ f.b1), capturedAt := none }

theorem decodeFrame_headerMismatch (t : Table) {f : ByteFrame} (h0 : f.b0 ≠ Config.header) :
    decodeFrame t f = .err .headerMismatch :=
  if_pos h0

theorem decodeFrame_checksumFailed {t : Table} {f : ByteFrame} (h0 : f.b0 = Config.header)
    (h3 : crcOf t [f.b0, f.b1, f.b2] ≠ f.b3) : decodeFrame t f = .err .checksumFailed := by
  rw [decodeFrame, if_neg (not_not.mpr h0), if_pos h3]

/-- DECODE gives a sample exactly for a frame that passes both checks, and which one (spec/41_frame_decoder.md R126). -/
theorem decodeFrame_eq_ok {t : Table} {f : ByteFrame} {x : Sample} :
    decodeFrame t f = .ok x ↔
      f.b0 = Config.header ∧ crcOf t [f.b0, f.b1, f.b2] = f.b3 ∧ x = decodedSample f := by
  rcases decodeFrame_cases t f with ⟨h0, hd⟩ | ⟨_, h3, hd⟩ | ⟨h0, h3, hd⟩ <;> rw [hd]
  · simp [h0]
  · simp [h3]
  · rw [rawCode_eq_append]
    simp [h0, ← h3, decodedSample, eq_comm]

/-- The header check comes first (spec/41_frame_decoder.md R121). -/
theorem exec_decode_headerMismatch {s : State} (hp : isPermutation s.params.crcTable = true) {b0 : Byte} (b1 b2 b3 : Byte)
    (h0 : b0 ≠ 0x54) :
    exec (.decode b0 b1 b2 b3) s = .next { s with result := some (.decoded (.err .headerMismatch)) } := by
  rw [exec_decode_of hp, decodeFrame_headerMismatch _ h0]

theorem exec_decode_checksumFailed {s : State} (hp : isPermutation s.params.crcTable = true) {b1 b2 b3 : Byte}
    (h3 : crcOf s.params.crcTable [0x54, b1, b2] ≠ b3) :
    exec (.decode 0x54 b1 b2 b3) s = .next { s with result := some (.decoded (.err .checksumFailed)) } := by
  rw [exec_decode_of hp, decodeFrame_checksumFailed (f := ⟨0x54, b1, b2, b3⟩) rfl h3]

theorem exec_decode_ok {s : State} (hp : isPermutation s.params.crcTable = true) {b1 b2 b3 : Byte}
    (h3 : crcOf s.params.crcTable [0x54, b1, b2] = b3) :
    exec (.decode 0x54 b1 b2 b3) s =
      .next { s with result := some (.decoded (.ok (decodedSample ⟨0x54, b1, b2, b3⟩))) } := by
  rw [exec_decode_of hp, decodeFrame_eq_ok (f := ⟨0x54, b1, b2, b3⟩).mpr ⟨rfl, h3, rfl⟩]

/-- The checksum of a frame's first three bytes is three table reads (spec/41_frame_decoder.md R122). -/
theorem crcOf_three (t : Table) (b0 b1 b2 : Byte) :
    crcOf t [b0, b1, b2] = tableRead t (tableRead t (tableRead t (0x00 ^^^ b0) ^^^ b1) ^^^ b2) := rfl

/-- Settles O10: the three outcomes of the two checks in order, the checksum written out, the image bytes, R123's example. -/
theorem decodeChecksHeaderThenChecksum : Obligations.DecodeChecksHeaderThenChecksum := by
  obtain ⟨_, _, hexample⟩ := crcOf_t07_frame
  exact ⟨fun _ _ b1 b2 b3 hp h0 => exec_decode_headerMismatch hp b1 b2 b3 h0,
    fun _ _ _ _ hp h3 => exec_decode_checksumFailed hp h3,
    fun _ _ _ _ hp h3 => exec_decode_ok hp h3,
    crcOf_three, decodeOp_decode, hexample, classify_of_between (by decide) (by decide)⟩

/-- Settles O12: the checksum CRC_COMPUTE returns is the one DECODE tests the fourth byte against. -/
theorem decodeRoundTripsEveryCode : Obligations.DecodeRoundTripsEveryCode := by
  intro s lo hi hp
  refine ⟨crcOf s.params.crcTable [0x54, lo, hi], exec_crcCompute_whole hp rfl, exec_decode_ok hp rfl,
    fun h0 h1 h2 => ?_, fun x hx => exec_decode_checksumFailed hp hx.symm⟩
  rw [classify_of_not_sentinel h0 h1 h2, append_byte_toNat]

/-- Settles O13: a flipped bit in byte 0 breaks the header, in byte 1 or 2 it changes the checksum, in byte 3 it leaves the
right checksum beside another byte. -/
theorem decodeRejectsEverySingleBitError : Obligations.DecodeRejectsEverySingleBitError := by
  rintro s b1 b2 _ j hp rfl hj
  have hne := fun b : Byte => ne_xor_bit b hj
  have hcrc1 := crcOf_ne_of_byte_ne hp [0x54] [b2] (hne b1)
  have hcrc2 := crcOf_ne_of_byte_ne hp [0x54, b1] [] (hne b2)
  exact ⟨exec_decode_headerMismatch hp _ _ _ (hne 0x54).symm,
    exec_decode_checksumFailed hp hcrc1.symm,
    exec_decode_checksumFailed hp hcrc2.symm,
    exec_decode_checksumFailed hp (hne _)⟩

/-! ### What a step delivers -/

/-- DECODE, when it completes, returns its frame's outcome. -/
theorem exec_decode_eq_next {b0 b1 b2 b3 : Byte} {s t : State} (h : exec (.decode b0 b1 b2 b3) s = .next t) :
    t = { s with result := some (.decoded (decodeFrame s.params.crcTable ⟨b0, b1, b2, b3⟩)) } := by
  obtain ⟨_, h⟩ := needTable_eq_next.mp h
  exact finish_eq_next.mp h

/-- The sink is unchanged, or has one sample more: the one of the next four bytes of `s`'s stream, left in FRAME, which pass
both checks (spec/41_frame_decoder.md R126). -/
def DeliversChecked (s t : State) : Prop :=
  t.sink = s.sink ∨
  ∃ (f : ByteFrame) (x : Sample), streamTake 4 s = frameBytes f ∧ t.frame = some f ∧ f.b0 = Config.header ∧
    crcOf s.params.crcTable [f.b0, f.b1, f.b2] = f.b3 ∧ t.sink = s.sink ++ [x] ∧ x.rawCode = f.b2 ++ f.b1 ∧
    x.classification = classify (f.b2 ++ f.b1)

/-- An attempt that is not valid delivers nothing; a valid one delivers its window's sample (spec/43_pipeline.md R177). -/
theorem Attempted.deliversChecked {s t : State} {c : RunConfig} {o : AttemptOutcome} (a : Attempted s c o t) :
    DeliversChecked s t := by
  have hsink := a.sink
  cases o with
  | valid x =>
    obtain ⟨f, hwindow, hframe, h0, h3, hraw, hclass, _⟩ := a.sample x rfl
    rw [rawCode_eq_append] at hraw hclass
    exact .inr ⟨f, x, hwindow, hframe, h0, h3, hsink, hraw, hclass⟩
  | headerMismatch => exact .inl (hsink.trans (List.append_nil _))
  | checksumFailed => exact .inl (hsink.trans (List.append_nil _))
  | timeout => exact .inl (hsink.trans (List.append_nil _))
  | transportFailure => exact .inl (hsink.trans (List.append_nil _))

/-- Of the operations only RUN_STEP delivers. -/
theorem Operated.deliversChecked {s t : State} {i : Instr} (h : Operated s i t) : DeliversChecked s t := by
  cases h with
  | pure _ ht _ => rw [ht]; exact .inl rfl
  | pulled => rw [pullFrame_frame_rule s]; exact .inl rfl
  | attempted _ _ _ _ a => exact a.deliversChecked
  | failed _ _ _ a => exact a.deliversChecked
  | started => exact .inl rfl
  | inited => exact .inl (afterWriteDraw_sink s)
  | initFailed => exact .inl (afterWriteDraw_sink s)
  | closed => exact .inl rfl

theorem Stepped.deliversChecked {s u : State} (h : Stepped s u) : DeliversChecked s u := by
  rcases h.kinds with rfl | ⟨_, _, _, _, _, rfl⟩ | ⟨_, rfl⟩ | ⟨i, s1, htook, hop⟩
  · exact .inl rfl
  · exact .inl rfl
  · exact .inl rfl
  · have hdelivers := hop.deliversChecked
    rw [htook.state] at hdelivers
    exact hdelivers

/-- Settles O43: DECODE's sample needs both checks, and a step's only delivery is a valid attempt's. -/
theorem stepDeliversOnlyCheckedFrames : Obligations.StepDeliversOnlyCheckedFrames := by
  constructor
  · intro s t b0 b1 b2 b3 x h hx
    rw [exec_decode_eq_next h] at hx
    have hok : decodeFrame s.params.crcTable ⟨b0, b1, b2, b3⟩ = .ok x := by simpa using hx
    obtain ⟨h0, h3, rfl⟩ := decodeFrame_eq_ok.mp hok
    exact ⟨h0, h3, rfl⟩
  · intro s t h
    obtain ⟨u, hu, rfl⟩ := stepped_of_next h
    rw [callerTurn_eq]
    exact hu.deliversChecked

end Sys2Proof.Machine
end

section
/-! PROOFS. The stream synchronizer: what NEXT_FRAME answers, how many bytes an attempt takes, and what a step does to the
alignment (spec/42_stream_sync.md). -/

namespace Sys2Proof.Machine

open Sys2Proof.Safety

/-! ### NEXT_FRAME -/

/-- NEXT_FRAME is the window read under what it needs (spec/42_stream_sync.md R151). -/
theorem exec_nextFrame_of {s : State} (hp : isPermutation s.params.crcTable = true) (hr : s.phase = .running)
    (ho : s.channelOpen = true) : exec .nextFrame s = finish (.frame (pullFrame s).1) (pullFrame s).2 :=
  (needTable_of hp _).trans ((needPhase_of hr _).trans (needChannel_of ho _))

/-- A read that takes `n` bytes uses up its draw, and moves CURSOR and the stream by `n` (spec/20_memory.md R57). -/
theorem consume_afterReadDraw (n : Nat) (s : State) :
    consume n (afterReadDraw s) = { afterReadDraw s with cursor := s.cursor + n, input := s.input.drop n } := by
  simp [consume]

/-- Settles O15: the three answers of the window read under NEXT_FRAME's preconditions, and the decoder at code 05. -/
theorem nextFrameFollowsTheRead : Obligations.NextFrameFollowsTheRead := by
  refine ⟨fun s k f hp hr ho hd hb => ?_, fun s k n hp hr ho hd hn hlt => ?_, fun s hp hr ho hd => ?_,
    fun rest => ⟨rfl, rfl⟩⟩
  · rw [exec_nextFrame_of hp hr ho, pullFrame_full hd hb, consume_afterReadDraw]
    rfl
  · subst hn
    rw [exec_nextFrame_of hp hr ho, pullFrame_short hd hlt, consume_afterReadDraw]
    rfl
  · rw [exec_nextFrame_of hp hr ho, pullFrame_failed hd]
    rfl

/-! ### The bytes an attempt takes -/

/-- Settles O16: an attempt's outcome says how many bytes its read took. -/
theorem everyFullWindowTakesFourBytes : Obligations.EveryFullWindowTakesFourBytes := by
  intro s t h
  obtain ⟨c, o, _, a⟩ := execRunStep_attempted h
  rw [a.result]
  by_cases hf : o = .transportFailure
  · exact .inl ⟨by rw [hf], a.failedRead hf⟩
  · by_cases ht : o = .timeout
    · exact .inr (.inl ⟨by rw [ht], a.shortRead ht⟩)
    · exact .inr (.inr ⟨by simpa using hf, by simpa using ht, a.fullRead hf ht⟩)

/-! ### Alignment -/

/-- From `s` to `t` CURSOR moves by whole windows while TIMEOUTS does not grow, and by less than a window where it grows
by 1 (spec/42_stream_sync.md R152, R153). -/
def MovesByWindows (s t : State) : Prop :=
  (t.timeouts ≤ s.timeouts ∧ (t.cursor = s.cursor ∨ t.cursor = s.cursor + 4)) ∨
  (t.timeouts = s.timeouts + 1 ∧ ∃ n < 4, t.cursor = s.cursor + n)

theorem movesByWindows_of_cursor_eq {s t : State} (ht : t.timeouts ≤ s.timeouts) (hc : t.cursor = s.cursor) :
    MovesByWindows s t := .inl ⟨ht, .inl hc⟩

theorem Attempted.movesByWindows {s t : State} {c : RunConfig} {o : AttemptOutcome} (a : Attempted s c o t) :
    MovesByWindows s t := by
  have hcount := a.timeouts
  have hwhole : o ≠ .transportFailure → o ≠ .timeout → t.cursor = s.cursor + 4 := fun hf ht => (a.fullRead hf ht).1
  cases o with
  | transportFailure => exact movesByWindows_of_cursor_eq hcount.le (a.failedRead rfl).1
  | timeout =>
    obtain ⟨n, hn, hcursor, _⟩ := a.shortRead rfl
    exact .inr ⟨hcount, n, hn, hcursor⟩
  | headerMismatch => exact .inl ⟨hcount.le, .inr (hwhole (by simp) (by simp))⟩
  | checksumFailed => exact .inl ⟨hcount.le, .inr (hwhole (by simp) (by simp))⟩
  | valid x => exact .inl ⟨hcount.le, .inr (hwhole (by simp) (by simp))⟩

/-- Every operation but a NEXT_FRAME outside an attempt, whose short read no counter shows, moves CURSOR by windows. -/
theorem Operated.movesByWindows {s t : State} {i : Instr} (h : Operated s i t) (hi : i ≠ .nextFrame) :
    MovesByWindows s t := by
  cases h with
  | pure _ ht _ => rw [ht]; exact movesByWindows_of_cursor_eq le_rfl rfl
  | pulled => exact absurd rfl hi
  | attempted _ _ _ _ a => exact a.movesByWindows
  | failed _ _ _ a => exact a.movesByWindows
  | started => exact movesByWindows_of_cursor_eq (Nat.zero_le _) rfl
  | inited => exact movesByWindows_of_cursor_eq (afterWriteDraw_timeouts s).le (afterWriteDraw_cursor s)
  | initFailed => exact movesByWindows_of_cursor_eq (afterWriteDraw_timeouts s).le (afterWriteDraw_cursor s)
  | closed => exact movesByWindows_of_cursor_eq le_rfl rfl

/-- A step takes NEXT_FRAME as its operation only from a slot that holds it, as no engine's slot does (log 7). -/
theorem Took.ne_nextFrame {s s1 : State} {i : Instr} (h : Took s i s1)
    (he : s.engineReq = [] ∨ s.engineReq = encode .runStep) : i ≠ .nextFrame := by
  rintro rfl
  rcases h.issuer with hi | ⟨rest, hd⟩
  · cases hi
  · rcases he with he | he <;> rw [he] at hd <;> cases hd

theorem Stepped.movesByWindows {s u : State} (h : Stepped s u)
    (he : s.engineReq = [] ∨ s.engineReq = encode .runStep) : MovesByWindows s u := by
  rcases h.kinds with rfl | ⟨_, _, _, _, _, rfl⟩ | ⟨_, rfl⟩ | ⟨i, s1, htook, hop⟩
  · exact movesByWindows_of_cursor_eq le_rfl rfl
  · exact movesByWindows_of_cursor_eq le_rfl rfl
  · exact movesByWindows_of_cursor_eq le_rfl rfl
  · have hmoves := hop.movesByWindows (htook.ne_nextFrame he)
    rw [htook.state] at hmoves
    exact hmoves

/-- Settles O17: whole windows keep the distance from the frame start modulo 4, and a short read shifts it. -/
theorem misalignmentPersists : Obligations.MisalignmentPersists := by
  intro s t start m h hstart hm he
  obtain ⟨u, hu, rfl⟩ := stepped_of_next h
  have hmoves := hu.movesByWindows he
  rw [callerTurn_timeouts, callerTurn_cursor]
  rcases hmoves with ⟨hle, hcursor⟩ | ⟨hgrown, n, hn, hcursor⟩
  · exact ⟨fun _ => by omega, fun hg => by omega⟩
  · exact ⟨fun hle => by omega, fun _ => ⟨n, hn, hcursor, by omega⟩⟩

end Sys2Proof.Machine
end

section
/-! PROOFS. The run loop over full windows: one check and one attempt a window, and what a list of them adds up to
(spec/42_stream_sync.md R152, spec/43_pipeline.md R170 to R181). -/

namespace Sys2Proof.Machine

open Sys2Proof.Safety

/-! ### One full window without a timestamp -/

/-- DECODE's outcome as the attempt's, when no timestamp is drawn (spec/43_pipeline.md R171). -/
theorem outcomeOf_cases (t : Table) (f : ByteFrame) :
    (decodeFrame t f = .err .headerMismatch ∧ outcomeOf t f = .headerMismatch) ∨
    (decodeFrame t f = .err .checksumFailed ∧ outcomeOf t f = .checksumFailed) ∨
    (decodeFrame t f = .ok (decodedSample f) ∧ outcomeOf t f = .valid (decodedSample f)) := by
  rcases decodeFrame_cases t f with ⟨h0, hd⟩ | ⟨h0, h3, hd⟩ | ⟨h0, h3, hd⟩
  · exact .inl ⟨hd, if_pos h0⟩
  · exact .inr (.inl ⟨hd, (if_neg (not_not.mpr h0)).trans (if_pos h3)⟩)
  · exact .inr (.inr ⟨decodeFrame_eq_ok.mpr ⟨h0, h3, rfl⟩,
      (if_neg (not_not.mpr h0)).trans (if_neg (not_not.mpr h3))⟩)

theorem outcomeOf_ne_transportFailure (t : Table) (f : ByteFrame) : outcomeOf t f ≠ .transportFailure := by
  rcases outcomeOf_cases t f with ⟨_, h⟩ | ⟨_, h⟩ | ⟨_, h⟩ <;> simp [h]

/-- The entries of `EVENTS` that a list of full windows gives. -/
def windowEvents (t : Table) (fs : List ByteFrame) : List Event := fs.map fun f => .attempt (outcomeOf t f)

/-- The state one attempt leaves whose read gave the full window `f`, with no timestamp drawn. -/
def windowRecorded (f : ByteFrame) (s : State) : State :=
  { afterReadDraw s with
    cursor := s.cursor + 4
    input := s.input.drop 4
    frame := some f
    sink := s.sink ++ (windowEvents s.params.crcTable [f]).filterMap sampleOf
    valid := s.valid + tally .valid (windowEvents s.params.crcTable [f])
    headerMismatches := s.headerMismatches + tally .headerMismatches (windowEvents s.params.crcTable [f])
    checksumFailures := s.checksumFailures + tally .checksumFailures (windowEvents s.params.crcTable [f])
    events := s.events ++ windowEvents s.params.crcTable [f]
    result := some (.attempt (outcomeOf s.params.crcTable f)) }

theorem attempt_full_untimed {s : State} {c : RunConfig} {k : Nat} {f : ByteFrame} (hts : c.timestamps = false)
    (hw : s.params.counterWidth = none) (hd : readDraw s = .bytes k) (hb : streamTake (min k 4) s = frameBytes f) :
    attempt c s = .next (windowRecorded f s) := by
  obtain ⟨htime, hread⟩ : windowTime c f s = none ∧
      windowRead c f s = { consume 4 (afterReadDraw s) with frame := some f } := by
    rcases windowRead_eq c f s with ⟨hon, _⟩ | ⟨_, h⟩
    · simp [hts] at hon
    · exact h
  have hsample : windowSample c f s = decodedSample f := by
    simp [windowSample, decodedSample, htime, rawCode_eq_append]
  rw [attempt_full hd hb, hread, hsample, consume_afterReadDraw, windowRecorded, windowEvents]
  rcases outcomeOf_cases s.params.crcTable f with ⟨hdecode, ho⟩ | ⟨hdecode, ho⟩ | ⟨hdecode, ho⟩ <;>
    (simp only [hdecode, ho]
     rw [endAttempt_of (by simp [hw])]
     simp [ho, countOutcome, counterOf, counterUp, sampleOf, sinkEmit, tally, counterOfEvent])

/-! ### One turn of the loop -/

/-- With the budget not met and CANCEL 0, the check issues RUN_STEP (spec/43_pipeline.md R172). -/
theorem step_check_issues {s : State} {c : RunConfig} (he : s.engineReq = []) (hp : s.phase = .running)
    (hc : s.runConfig = some c) (hb : budgetMet c.budget s.valid = false) (hl : s.cancel = false) :
    step s = .next (callerTurn (issueRunStep s)) := by
  rw [step_check he hp, betweenFrames, configRead_of hc, hb, hl]
  rfl

/-- The issued attempt as a step, when it ends in anything but a TransportFailure (spec/43_pipeline.md R170). -/
theorem step_issued_goes_on {s t : State} {c : RunConfig} (he : s.engineReq = encode .runStep) (ha : Attempting s c)
    (h : attempt c { s with engineReq := [] } = .next t) (ht : t.result ≠ some (.attempt .transportFailure)) :
    step s = .next (callerTurn t) := by
  have hexec : execRunStep { s with engineReq := [] } = .next t :=
    (execRunStep_of (s := { s with engineReq := [] }) ha.admitted ha.running ha.channel ha.config).trans h
  rw [step_issued he, hexec, andThen_next_left, afterAttempt_goes_on ht, thenCaller_next]

/-- A running engine between two attempts, without budget, timestamps or counter width, that gets the full windows `fs`
and CANCEL 0 at the check before each of them. -/
structure Fed (s : State) (c : RunConfig) (fs : List ByteFrame) : Prop where
  attempting : Attempting s c
  unbudgeted : c.budget = none
  untimed : c.timestamps = false
  unbounded : s.params.counterWidth = none
  slot : s.engineReq = []
  input : fs.flatMap frameBytes <+: s.input
  readDraws : List.replicate fs.length (.bytes 4) <+: s.readDraws
  levels : ∀ j < fs.length, (s.cancel :: s.cancelInputs)[2 * j]? = some false

/-- From `s` to `t` the engine took exactly the windows `fs` and accounted for each. -/
structure Accounted (fs : List ByteFrame) (s t : State) : Prop where
  params : t.params = s.params
  phase : t.phase = .running
  cursor : t.cursor = s.cursor + 4 * fs.length
  input : t.input = s.input.drop (4 * fs.length)
  events : t.events = s.events ++ windowEvents s.params.crcTable fs
  sink : t.sink = s.sink ++ (windowEvents s.params.crcTable fs).filterMap sampleOf
  counts : ∀ k, counterValue k t = counterValue k s + tally k (windowEvents s.params.crcTable fs)

theorem Accounted.trans {fs gs : List ByteFrame} {s u t : State} (h : Accounted fs s u) (h' : Accounted gs u t) :
    Accounted (fs ++ gs) s t where
  params := h'.params.trans h.params
  phase := h'.phase
  cursor := by rw [h'.cursor, h.cursor, List.length_append]; omega
  input := by rw [h'.input, h.input, List.drop_drop, List.length_append, Nat.mul_add]
  events := by rw [h'.events, h.events, h.params]; simp [windowEvents]
  sink := by rw [h'.sink, h.sink, h.params]; simp [windowEvents]
  counts k := by rw [h'.counts, h.counts, h.params]; simp [windowEvents, tally, Nat.add_assoc]

/-- The state an attempt runs in that the check at `s` has issued: the caller has had its turn, the slot is empty. -/
def issuedAttempt (s : State) : State := { callerTurn (issueRunStep s) with engineReq := [] }

/-- The state after the two steps of one full window: its check and its attempt, each with the caller's turn. -/
def windowTurn (f : ByteFrame) (s : State) : State := callerTurn (windowRecorded f (issuedAttempt s))

/-- What a window's two steps change, and no other field: the stream and what the attempt records, the read answer used up,
CANCEL and its levels, and the count of free values. -/
theorem windowTurn_eq {s : State} (he : s.engineReq = []) (f : ByteFrame) :
    windowTurn f s = { s with
      cursor := s.cursor + 4
      input := s.input.drop 4
      frame := some f
      sink := s.sink ++ (windowEvents s.params.crcTable [f]).filterMap sampleOf
      valid := s.valid + tally .valid (windowEvents s.params.crcTable [f])
      headerMismatches := s.headerMismatches + tally .headerMismatches (windowEvents s.params.crcTable [f])
      checksumFailures := s.checksumFailures + tally .checksumFailures (windowEvents s.params.crcTable [f])
      events := s.events ++ windowEvents s.params.crcTable [f]
      result := some (.attempt (outcomeOf s.params.crcTable f))
      readDraws := s.readDraws.tail
      cancel := (windowTurn f s).cancel
      cancelInputs := s.cancelInputs.tail.tail
      drawNo := (windowTurn f s).drawNo } := by
  rw [windowTurn, callerTurn_eq]
  simp [windowRecorded, issuedAttempt, he]

/-- No full window counts as a timeout (spec/43_pipeline.md R173). -/
theorem tally_timeouts_windowEvents (t : Table) (fs : List ByteFrame) : tally .timeouts (windowEvents t fs) = 0 := by
  have hnone : ∀ f, counterOf (outcomeOf t f) ≠ some .timeouts := by
    intro f
    rcases outcomeOf_cases t f with ⟨_, h⟩ | ⟨_, h⟩ | ⟨_, h⟩ <;> simp [h, counterOf]
  simp [tally, windowEvents, counterOfEvent, hnone]

theorem windowTurn_accounted {s : State} (he : s.engineReq = []) (hp : s.phase = .running) (f : ByteFrame) :
    Accounted [f] s (windowTurn f s) := by
  rw [windowTurn_eq he]
  refine ⟨rfl, hp, rfl, rfl, rfl, rfl, fun k => ?_⟩
  cases k with
  | timeouts => rw [tally_timeouts_windowEvents]; rfl
  | valid => rfl
  | headerMismatches => rfl
  | checksumFailures => rfl

/-- One window's two steps: the check finds CANCEL 0, the attempt reads the window. -/
theorem Fed.run_windowTurn {s : State} {c : RunConfig} {f : ByteFrame} {fs : List ByteFrame} (h : Fed s c (f :: fs))
    (k : Nat) :
    Host.Core.run Sys2Proof.core (k + 2) s = Host.Core.run Sys2Proof.core k (windowTurn f s) := by
  have hcancel : s.cancel = false := by simpa using h.levels 0 (by simp)
  have hcheck := step_check_issues h.slot h.attempting.running h.attempting.config (by rw [h.unbudgeted]; rfl) hcancel
  obtain ⟨ds, hds⟩ := h.readDraws
  obtain ⟨bs, hbs⟩ := h.input
  have ha : Attempting (callerTurn (issueRunStep s)) c := by
    obtain ⟨hadmitted, hrunning, hchannel, hconfig⟩ := h.attempting
    constructor <;> simpa [Admitted]
  have hattempt : attempt c (issuedAttempt s) = .next (windowRecorded f (issuedAttempt s)) := by
    refine attempt_full_untimed (k := 4) h.untimed (by simpa [issuedAttempt] using h.unbounded) ?_ ?_
    · simp [readDraw, issuedAttempt, ← hds, List.replicate_succ]
    · rw [streamTake_listed] <;> simp [issuedAttempt, ← hbs, frameBytes]
  have hstep := step_issued_goes_on (by simp) ha hattempt (by simpa [windowRecorded] using outcomeOf_ne_transportFailure _ f)
  rw [run_succ (k + 1) hcheck, run_succ k hstep]
  rfl

/-- The levels of CANCEL after a window's two steps are those of two steps later before them (log 2). -/
theorem levels_windowTurn {s : State} {n : Nat} {level : Bool} (f : ByteFrame)
    (h : (s.cancel :: s.cancelInputs)[n + 2]? = some level) :
    ((windowTurn f s).cancel :: (windowTurn f s).cancelInputs)[n]? = some level := by
  have hissued := levels_callerTurn (s := issueRunStep s) (n := n + 1) h
  exact levels_callerTurn (s := windowRecorded f (issuedAttempt s)) (by simpa [windowRecorded, issuedAttempt] using hissued)

/-- After a window's two steps the engine is between attempts again, fed with the windows that are left. -/
theorem Fed.after_windowTurn {s : State} {c : RunConfig} {f : ByteFrame} {fs : List ByteFrame} (h : Fed s c (f :: fs)) :
    Fed (windowTurn f s) c fs := by
  have hlevels : ∀ j < fs.length, ((windowTurn f s).cancel :: (windowTurn f s).cancelInputs)[2 * j]? = some false :=
    fun j hj => levels_windowTurn f (h.levels (j + 1) (by simpa using hj))
  obtain ⟨⟨hadmitted, hrunning, hchannel, hconfig⟩, hb, hts, hw, he, ⟨bs, hbs⟩, ⟨ds, hds⟩, _⟩ := h
  rw [windowTurn_eq he] at hlevels ⊢
  exact ⟨⟨hadmitted, hrunning, hchannel, hconfig⟩, hb, hts, hw, he, ⟨bs, by rw [← hbs]; rfl⟩,
    ⟨ds, by rw [← hds]; rfl⟩, hlevels⟩

/-- The loop over a list of full windows. -/
theorem Fed.run_accounted {c : RunConfig} {fs : List ByteFrame} {s : State} (h : Fed s c fs) :
    ∃ t, Host.Core.run Sys2Proof.core (2 * fs.length) s = .next t ∧ Accounted fs s t := by
  induction fs generalizing s with
  | nil => exact ⟨s, run_zero s, by constructor <;> simp [windowEvents, tally, h.attempting.running]⟩
  | cons f fs ih =>
    obtain ⟨t, ht, hrest⟩ := ih h.after_windowTurn
    exact ⟨t, (h.run_windowTurn _).trans ht, (windowTurn_accounted h.slot h.attempting.running f).trans hrest⟩

/-- Settles O55: by induction over the windows, two steps and one outcome each. -/
theorem runAccountsForEveryWindow : Obligations.RunAccountsForEveryWindow := by
  intro fs s c rest draws ha hb hts hw he hin hd hl
  have hfed : Fed s c fs := ⟨ha, hb, hts, hw, he, ⟨rest, hin.symm⟩, ⟨draws, hd.symm⟩, hl⟩
  obtain ⟨t, ht, acc⟩ := hfed.run_accounted
  have hlength : (fs.flatMap frameBytes).length = 4 * fs.length := by
    simp [List.length_flatMap, Nat.mul_comm]
  have hinput : t.input = rest := by
    rw [acc.input, hin]
    exact List.drop_left' hlength
  have htimeouts : t.timeouts = s.timeouts := by
    simpa [counterValue, tally_timeouts_windowEvents] using acc.counts .timeouts
  exact ⟨t, ht, acc.phase, hinput, acc.cursor, acc.events, by rw [acc.sink, windowEvents, List.filterMap_map]; rfl,
    acc.counts .valid, acc.counts .headerMismatches, acc.counts .checksumFailures, htimeouts⟩

end Sys2Proof.Machine
end

section
/-! PROOFS. What a step records: trace, counters, sink and CURSOR together (spec/10_state.md R35, spec/43_pipeline.md R173 to
R181), and the budget (R172, R175). -/

namespace Sys2Proof.Machine

open Sys2Proof.Safety

/-! ### The accounts -/

/-- How many of the entries stand for a full window (spec/42_stream_sync.md R152). -/
def fullWindows (l : List Event) : Nat := tally .valid l + tally .headerMismatches l + tally .checksumFailures l

/-- From `s` to `t` the entries `l` were recorded, and counters, sink, channel and CURSOR say what those entries say. -/
structure Recorded (s : State) (l : List Event) (t : State) : Prop where
  events : t.events = s.events ++ l
  counts : ∀ k, counterValue k t = counterValue k s + tally k l
  sink : t.sink = s.sink ++ l.filterMap sampleOf
  classified : ∀ x ∈ l.filterMap sampleOf, x.classification = classify x.rawCode
  closes : (if s.channelOpen then 0 else 1) + l.countP (· == .close) = if t.channelOpen then 0 else 1
  closesLast : t.channelOpen = false → (l = [] ∧ s.channelOpen = false) ∨ l.getLast? = some .close
  cursorAtLeast : s.cursor + 4 * fullWindows l ≤ t.cursor
  cursorAtMost : t.cursor ≤ s.cursor + 4 * fullWindows l + 3 * tally .timeouts l

@[simp] theorem tally_nil (k : Counter) : tally k [] = 0 := rfl

@[simp] theorem tally_append (k : Counter) (l m : List Event) : tally k (l ++ m) = tally k l + tally k m :=
  List.countP_append

@[simp] theorem tally_attempt (k : Counter) (o : AttemptOutcome) :
    tally k [.attempt o] = if counterOf o = some k then 1 else 0 := by
  simp [tally, counterOfEvent, List.countP_cons]

@[simp] theorem tally_write (k : Counter) (bytes : List Byte) (a : WriteAnswer) : tally k [.write bytes a] = 0 := rfl

@[simp] theorem tally_close (k : Counter) : tally k [.close] = 0 := rfl

/-- A change that records nothing. -/
theorem recorded_nil {s t : State} (hevents : t.events = s.events) (hcounts : ∀ k, counterValue k t = counterValue k s)
    (hsink : t.sink = s.sink) (hopen : t.channelOpen = s.channelOpen) (hcursor : t.cursor = s.cursor) : Recorded s [] t where
  events := by rw [hevents, List.append_nil]
  counts := hcounts
  sink := hsink.trans (List.append_nil _).symm
  classified _ h := by cases h
  closes := by rw [hopen]; rfl
  closesLast h := .inl ⟨rfl, hopen ▸ h⟩
  cursorAtLeast := hcursor.ge
  cursorAtMost := hcursor.le

theorem Recorded.trans {s u t : State} {l m : List Event} (h : Recorded s l u) (h' : Recorded u m t) :
    Recorded s (l ++ m) t where
  events := by rw [h'.events, h.events, List.append_assoc]
  counts k := by rw [h'.counts, h.counts, tally_append, Nat.add_assoc]
  sink := by rw [h'.sink, h.sink, List.filterMap_append, List.append_assoc]
  classified x hx := by
    rw [List.filterMap_append, List.mem_append] at hx
    exact hx.elim (h.classified x) (h'.classified x)
  closes := by rw [List.countP_append, ← Nat.add_assoc, h.closes, h'.closes]
  closesLast ht := by
    rcases h'.closesLast ht with ⟨rfl, hu⟩ | hlast
    · rw [List.append_nil]; exact h.closesLast hu
    · rw [List.getLast?_append, hlast]; exact .inr rfl
  cursorAtLeast := by
    have h1 := h.cursorAtLeast
    have h2 := h'.cursorAtLeast
    simp only [fullWindows, tally_append] at *
    omega
  cursorAtMost := by
    have h1 := h.cursorAtMost
    have h2 := h'.cursorAtMost
    simp only [fullWindows, tally_append] at *
    omega

/-- What is recorded keeps the accounts. -/
theorem Recorded.accounts {s t : State} {l : List Event} (h : Recorded s l t) (a : Accounts s) : Accounts t := by
  have hv : t.valid = s.valid + tally .valid l := h.counts .valid
  have hh : t.headerMismatches = s.headerMismatches + tally .headerMismatches l := h.counts .headerMismatches
  have hc : t.checksumFailures = s.checksumFailures + tally .checksumFailures l := h.counts .checksumFailures
  have ht : t.timeouts = s.timeouts + tally .timeouts l := h.counts .timeouts
  have hlow := h.cursorAtLeast
  have hhigh := h.cursorAtMost
  unfold fullWindows at hlow hhigh
  have hlow' := a.cursorAtLeast
  have hhigh' := a.cursorAtMost
  exact
    { validTally := by rw [hv, h.events, tally_append, a.validTally]
      headerTally := by rw [hh, h.events, tally_append, a.headerTally]
      checksumTally := by rw [hc, h.events, tally_append, a.checksumTally]
      timeoutTally := by rw [ht, h.events, tally_append, a.timeoutTally]
      sinkIsTrace := by rw [h.sink, h.events, List.filterMap_append, a.sinkIsTrace]
      classified := by
        intro x hx
        rw [h.sink, List.mem_append] at hx
        exact hx.elim (a.classified x) (h.classified x)
      closesOnce := by rw [h.events, List.countP_append, a.closesOnce, h.closes]
      closesLast := by
        intro hclosed
        rw [h.events]
        rcases h.closesLast hclosed with ⟨rfl, hs⟩ | hlast
        · rw [List.append_nil]; exact a.closesLast hs
        · rw [List.getLast?_append, hlast]; rfl
      cursorAtLeast := by omega
      cursorAtMost := by omega }

/-- STOP records the closing of the channel alone (spec/43_pipeline.md R175, R176). -/
theorem recorded_stoppedBy {s : State} (ho : s.channelOpen = true) (reason : StopReason) :
    Recorded s [.close] (stoppedBy reason s) where
  events := rfl
  counts k := by cases k <;> rfl
  sink := (List.append_nil _).symm
  classified _ h := by cases h
  closes := by rw [ho]; rfl
  closesLast _ := .inr rfl
  cursorAtLeast := le_rfl
  cursorAtMost := le_rfl

/-- An attempt moves CURSOR as its outcome's counter says (spec/42_stream_sync.md R152, R153). -/
theorem Attempted.cursor_of_outcome {s t : State} {c : RunConfig} {o : AttemptOutcome} (a : Attempted s c o t) :
    s.cursor + 4 * fullWindows [.attempt o] ≤ t.cursor ∧
      t.cursor ≤ s.cursor + 4 * fullWindows [.attempt o] + 3 * tally .timeouts [.attempt o] := by
  have hfull := a.fullRead
  simp only [fullWindows, tally_attempt]
  cases o with
  | transportFailure =>
    obtain ⟨hcursor, _⟩ := a.failedRead rfl
    simp [counterOf, hcursor]
  | timeout =>
    obtain ⟨n, hn, hcursor, _⟩ := a.shortRead rfl
    simp [counterOf, hcursor]
    omega
  | headerMismatch => simp [counterOf, hfull]
  | checksumFailed => simp [counterOf, hfull]
  | valid x => simp [counterOf, hfull]

/-- An attempt records its one outcome (spec/43_pipeline.md R173, R181). -/
theorem Attempted.recorded {s t : State} {c : RunConfig} {o : AttemptOutcome} (a : Attempted s c o t)
    (ho : s.channelOpen = true) : Recorded s [.attempt o] t where
  events := a.events
  counts k := by
    rw [tally_attempt]
    cases k with
    | valid => exact a.valid
    | headerMismatches => exact a.headerMismatches
    | checksumFailures => exact a.checksumFailures
    | timeouts => exact a.timeouts
  sink := by rw [a.sink]; cases o <;> rfl
  classified := by
    intro x hx
    cases o with
    | valid y =>
      obtain rfl : x = y := by simpa [sampleOf] using hx
      obtain ⟨f, _, _, _, _, hraw, hclass, _⟩ := a.sample x rfl
      rw [hraw, hclass]
    | headerMismatch => cases hx
    | checksumFailed => cases hx
    | timeout => cases hx
    | transportFailure => cases hx
  closes := by rw [a.channelOpen]; rfl
  closesLast h := by rw [a.channelOpen, ho] at h; cases h
  cursorAtLeast := a.cursor_of_outcome.1
  cursorAtMost := a.cursor_of_outcome.2

/-- Before RUN every counter is 0 (spec/10_state.md R38). -/
theorem counterValue_beforeRun {s : State} (l : Lifecycle s) (hp : s.phase = .reset ∨ s.phase = .ready) (k : Counter) :
    counterValue k s = 0 := by
  obtain ⟨_, _, _, _, hv, hh, hc, ht⟩ := l.beforeRun hp
  cases k
  exacts [hv, hh, hc, ht]

/-- Every operation but a NEXT_FRAME outside an attempt, which no entry shows, records what it does. -/
theorem Operated.recorded {s t : State} {i : Instr} (h : Operated s i t) (hi : i ≠ .nextFrame) (l : Lifecycle s) :
    ∃ m, Recorded s m t := by
  cases h with
  | pure _ ht _ =>
    rw [ht]
    exact ⟨[], recorded_nil rfl (fun k => by cases k <;> rfl) rfl rfl rfl⟩
  | pulled => exact absurd rfl hi
  | attempted _ ho _ _ a => exact ⟨_, a.recorded ho⟩
  | failed _ ho _ a => exact ⟨_, (a.recorded ho).trans (recorded_stoppedBy (a.channelOpen.trans ho) .transportFailure)⟩
  | started hp =>
    have hzero := counterValue_beforeRun l (.inr hp)
    exact ⟨[], recorded_nil rfl (fun k => by rw [hzero]; cases k <;> rfl) rfl rfl rfl⟩
  | inited _ ho =>
    refine ⟨[.write _ .ok], rfl, fun k => ?_, ?_, fun x h => (by cases h), ?_, fun h => ?_, ?_, ?_⟩
    · cases k <;> simp [counterValue]
    · simp [sampleOf]
    · simp
    · simp [ho] at h
    · simp [fullWindows]
    · simp [fullWindows]
  | initFailed _ ho =>
    refine ⟨[.write _ .fail, .close], rfl, fun k => ?_, ?_, fun x h => (by cases h), ?_, fun _ => .inr rfl, ?_, ?_⟩
    · cases k <;> simp [counterValue, tally, counterOfEvent]
    · simp [sampleOf]
    · simp [ho]
    · simp [fullWindows, tally, counterOfEvent]
    · simp [fullWindows, tally, counterOfEvent]
  | closed ho =>
    exact ⟨[.close], rfl, fun k => (by cases k <;> rfl), (List.append_nil _).symm, fun x h => (by cases h),
      (by rw [ho]; rfl), fun _ => .inr rfl, le_rfl, le_rfl⟩

/-- The engine's part of a step records what it does. -/
theorem Stepped.recorded {s u : State} (h : Stepped s u) (l : Lifecycle s) : ∃ m, Recorded s m u := by
  rcases h.kinds with rfl | ⟨reason, _, _, _, ho, rfl⟩ | ⟨_, rfl⟩ | ⟨i, s1, htook, hop⟩
  · exact ⟨[], recorded_nil rfl (fun _ => rfl) rfl rfl rfl⟩
  · exact ⟨[.close], recorded_stoppedBy ho reason⟩
  · exact ⟨[], recorded_nil rfl (fun k => by cases k <;> rfl) rfl rfl rfl⟩
  · have htaken : Recorded s [] s1 := by
      rw [htook.state]
      exact recorded_nil rfl (fun k => by cases k <;> rfl) rfl rfl rfl
    obtain ⟨m, hm⟩ := hop.recorded (htook.ne_nextFrame (l.engineOwn.imp_right And.left)) (htook.lifecycle l)
    exact ⟨_, htaken.trans hm⟩

/-- The caller's turn records nothing. -/
theorem callerTurn_recorded (s : State) : Recorded s [] (callerTurn s) := by
  rw [callerTurn_eq]
  exact recorded_nil rfl (fun k => by cases k <;> rfl) rfl rfl rfl

/-- Settles O40: every kind of step appends some entries and changes counters, sink, channel and CURSOR as they say. -/
theorem stepKeepsTheAccounts : Obligations.StepKeepsTheAccounts := by
  intro s t l a h
  obtain ⟨u, hu, rfl⟩ := stepped_of_next h
  obtain ⟨m, hm⟩ := hu.recorded l
  exact (callerTurn_recorded u).accounts (hm.accounts a)

/-! ### The budget -/

/-- With no attempt issued, only the number of delivered samples counts. -/
theorem withinBudget_of_le {s t : State} (hconfig : t.runConfig = s.runConfig) (hslot : t.engineReq = [])
    (hle : ∀ c n, s.runConfig = some c → c.budget = some n → t.valid ≤ n) : WithinBudget t :=
  fun c n hc hb => ⟨hle c n (hconfig ▸ hc) hb, absurd hslot⟩

/-- An attempt that starts below the budget ends within it (spec/43_pipeline.md R172). -/
theorem Attempted.withinBudget {s t : State} {c : RunConfig} {o : AttemptOutcome} (a : Attempted s c o t)
    (he : s.engineReq = []) (hbelow : ∀ c n, s.runConfig = some c → c.budget = some n → s.valid < n) : WithinBudget t := by
  refine withinBudget_of_le a.runConfig (a.engineReq.trans he) fun c n hc hb => ?_
  have hlt := hbelow c n hc hb
  rw [a.valid]
  split <;> omega

/-- An operation keeps the budget when RUN_STEP runs only below it. -/
theorem Operated.withinBudget {s t : State} {i : Instr} (h : Operated s i t) (he : s.engineReq = []) (w : WithinBudget s)
    (hbelow : i = .runStep → ∀ c n, s.runConfig = some c → c.budget = some n → s.valid < n) : WithinBudget t := by
  have hle : ∀ c n, s.runConfig = some c → c.budget = some n → s.valid ≤ n := fun c n hc hb => (w c n hc hb).1
  cases h with
  | pure _ ht _ => rw [ht]; exact withinBudget_of_le rfl he hle
  | pulled => rw [pullFrame_frame_rule s]; exact withinBudget_of_le rfl he hle
  | attempted _ _ _ _ a => exact a.withinBudget he (hbelow rfl)
  | failed _ _ _ a => exact a.withinBudget he (hbelow rfl)
  | started => exact fun _ _ _ _ => ⟨Nat.zero_le _, absurd he⟩
  | inited =>
    exact withinBudget_of_le (afterWriteDraw_runConfig s) ((afterWriteDraw_engineReq s).trans he) (by simpa using hle)
  | initFailed =>
    exact withinBudget_of_le (afterWriteDraw_runConfig s) ((afterWriteDraw_engineReq s).trans he) (by simpa using hle)
  | closed => exact withinBudget_of_le rfl he hle

/-- A budget that is not met leaves room for one more sample (spec/43_pipeline.md R170). -/
theorem lt_of_budgetMet_eq_false {n valid : Nat} (h : budgetMet (some n) valid = false) : valid < n := by
  simpa [budgetMet] using h

/-- The engine's part of a step keeps the budget: an attempt is issued only below it, and runs only when issued. -/
theorem Stepped.withinBudget {s u : State} (h : Stepped s u) (w : WithinBudget s) : WithinBudget u := by
  have hle : ∀ c n, s.runConfig = some c → c.budget = some n → s.valid ≤ n := fun c n hc hb => (w c n hc hb).1
  cases h with
  | idle => exact w
  | stopped he => exact withinBudget_of_le (s := s) rfl he hle
  | cancelled he => exact withinBudget_of_le (s := s) rfl he hle
  | issued _ _ hc hnot =>
    intro c' n hc' hb
    obtain rfl : _ = c' := Option.some.inj (hc.symm.trans hc')
    rw [hb] at hnot
    have hlt := lt_of_budgetMet_eq_false hnot
    exact ⟨hlt.le, fun _ => hlt⟩
  | callerOp he _ hi _ hop =>
    refine hop.withinBudget he (withinBudget_of_le (s := s) rfl he hle) ?_
    rintro rfl
    cases hi
  | callerValue he _ hi _ _ hop =>
    refine hop.withinBudget he (withinBudget_of_le (s := s) rfl he hle) ?_
    rintro rfl
    cases hi
  | engineOp he _ hop =>
    exact hop.withinBudget rfl (withinBudget_of_le (s := s) rfl rfl hle) fun _ c n hc hb => (w c n hc hb).2 he

/-- Settles O41: the check issues an attempt only below the budget, and an attempt delivers at most one sample. -/
theorem stepStaysWithinBudget : Obligations.StepStaysWithinBudget := by
  intro s t _ w h
  obtain ⟨u, hu, rfl⟩ := stepped_of_next h
  rw [callerTurn_eq]
  exact hu.withinBudget w

/-! ### The timestamps -/

/-- What leaves the sink and the latched configuration alone, and does not set the clock back, keeps the timestamps in order. -/
theorem timestamped_of_eq {s t : State} (h : Timestamped s) (hsink : t.sink = s.sink) (hconfig : t.runConfig = s.runConfig)
    (hclock : s.clockNow ≤ t.clockNow) : Timestamped t where
  whenEnabled := by rw [hsink, hconfig]; exact h.whenEnabled
  neverBack := by rw [hsink]; exact h.neverBack
  clockAhead x hx := (h.clockAhead x (hsink ▸ hx)).trans hclock

/-- A sample stamped with the clock's new value, or with none, goes to the end of a sink whose timestamps are in order
(spec/43_pipeline.md R174, R178). -/
theorem timestamped_of_delivered {s t : State} {c : RunConfig} {x : Sample} (h : Timestamped s)
    (hc : s.runConfig = some c) (hsink : t.sink = s.sink ++ [x]) (hconfig : t.runConfig = s.runConfig)
    (hclock : s.clockNow ≤ t.clockNow) (hx : x.capturedAt = if c.timestamps then some t.clockNow else none) :
    Timestamped t := by
  have hold : ∀ v ∈ s.sink.filterMap Sample.capturedAt, v ≤ t.clockNow := fun v hv => (h.clockAhead v hv).trans hclock
  have hsplit : t.sink.filterMap Sample.capturedAt =
      s.sink.filterMap Sample.capturedAt ++ if c.timestamps then [t.clockNow] else [] := by
    rw [hsink, List.filterMap_append]
    cases hts : c.timestamps <;> simp [hx, hts]
  constructor
  · intro c' hc' y hy
    obtain rfl : c = c' := Option.some.inj (hc.symm.trans (hconfig ▸ hc'))
    rw [hsink, List.mem_append, List.mem_singleton] at hy
    rcases hy with hy | rfl
    · exact h.whenEnabled c hc y hy
    · rw [hx]; cases c.timestamps <;> rfl
  · rw [hsplit]
    cases c.timestamps with
    | false => simpa using h.neverBack
    | true => simpa [List.pairwise_append] using ⟨h.neverBack, by simpa using hold⟩
  · rw [hsplit]
    cases c.timestamps with
    | false => simpa using hold
    | true => simpa [or_imp, forall_and] using hold

/-- An attempt keeps the timestamps in order. -/
theorem Attempted.timestamped {s t : State} {c : RunConfig} {o : AttemptOutcome} (a : Attempted s c o t)
    (hc : s.runConfig = some c) (h : Timestamped s) : Timestamped t := by
  have hsink := a.sink
  have hundelivered : t.sink = s.sink ++ [] → Timestamped t := fun hs =>
    timestamped_of_eq h (hs.trans (List.append_nil _)) a.runConfig a.clock
  cases o with
  | valid x =>
    obtain ⟨f, _, _, _, _, _, _, hx⟩ := a.sample x rfl
    exact timestamped_of_delivered h hc hsink a.runConfig a.clock hx
  | headerMismatch => exact hundelivered hsink
  | checksumFailed => exact hundelivered hsink
  | timeout => exact hundelivered hsink
  | transportFailure => exact hundelivered hsink

/-- Every operation keeps the timestamps in order; RUN latches its configuration while the sink is empty. -/
theorem Operated.timestamped {s t : State} {i : Instr} (h : Operated s i t) (l : Lifecycle s) (ts : Timestamped s) :
    Timestamped t := by
  cases h with
  | pure _ ht _ => rw [ht]; exact timestamped_of_eq ts rfl rfl le_rfl
  | pulled => rw [pullFrame_frame_rule s]; exact timestamped_of_eq ts rfl rfl le_rfl
  | attempted _ _ hc _ a => exact a.timestamped hc ts
  | failed _ _ hc a => exact timestamped_of_eq (a.timestamped hc ts) rfl rfl le_rfl
  | started hp =>
    obtain ⟨_, _, _, hsink, _⟩ := l.beforeRun (.inr hp)
    exact { ts with whenEnabled := fun c _ x hx => by rw [startRun, hsink] at hx; cases hx }
  | inited => exact timestamped_of_eq ts (afterWriteDraw_sink s) (afterWriteDraw_runConfig s) (afterWriteDraw_clockNow s).ge
  | initFailed => exact timestamped_of_eq ts (afterWriteDraw_sink s) (afterWriteDraw_runConfig s) (afterWriteDraw_clockNow s).ge
  | closed => exact timestamped_of_eq ts rfl rfl le_rfl

theorem Stepped.timestamped {s u : State} (h : Stepped s u) (l : Lifecycle s) (ts : Timestamped s) : Timestamped u := by
  rcases h.kinds with rfl | ⟨_, _, _, _, _, rfl⟩ | ⟨_, rfl⟩ | ⟨i, s1, htook, hop⟩
  · exact ts
  · exact timestamped_of_eq ts rfl rfl le_rfl
  · exact timestamped_of_eq ts rfl rfl le_rfl
  · have htaken : Timestamped s1 := by
      rw [htook.state]
      exact timestamped_of_eq ts rfl rfl le_rfl
    exact hop.timestamped (htook.lifecycle l) htaken

/-- Settles O42: only an attempt delivers, with the clock's new value when the run has timestamps. -/
theorem stepKeepsTimestampsInOrder : Obligations.StepKeepsTimestampsInOrder := by
  intro s t l ts h
  obtain ⟨u, hu, rfl⟩ := stepped_of_next h
  exact timestamped_of_eq (hu.timestamped l ts) (callerTurn_sink u) (callerTurn_runConfig u) (callerTurn_clockNow u).ge

end Sys2Proof.Machine
end

section
/-! PROOFS. One attempt to its exact next state, the check between two attempts, CLOSE, and when a step completes
(spec/43_pipeline.md R170 to R182). -/

namespace Sys2Proof.Machine

open Sys2Proof.Safety

/-! ### The outcome of one attempt -/

/-- The state after the read of a full window and, with timestamps on, the clock draw (spec/43_pipeline.md R174). -/
theorem windowRead_stamped (c : RunConfig) (f : ByteFrame) (s : State) :
    windowRead c f s = { (if c.timestamps then tickClock (afterReadDraw s) else afterReadDraw s) with
      cursor := s.cursor + 4, input := s.input.drop 4, frame := some f } := by
  rcases windowRead_eq c f s with ⟨hts, _, h⟩ | ⟨hts, _, h⟩ <;> rw [h, hts, consume_afterReadDraw]
  · unfold tickClock
    simp only [if_true]
    split <;> rfl
  · rfl

theorem windowTime_stamped (c : RunConfig) (f : ByteFrame) (s : State) :
    windowTime c f s = if c.timestamps then some (s.clockNow + clockDraw (afterReadDraw s)) else none := by
  rcases windowRead_eq c f s with ⟨hts, h, _⟩ | ⟨hts, h, _⟩ <;> rw [h, hts] <;> rfl

/-- An attempt's end, for an outcome whose counter fits (spec/43_pipeline.md R173). -/
theorem endAttempt_counted {o : AttemptOutcome} {k : Counter} {s : State} (hk : counterOf o = some k)
    (hw : counterFits s.params.counterWidth (counterValue k s) = true) :
    endAttempt o s = .next { counterUp k s with events := s.events ++ [.attempt o], result := some (.attempt o) } := by
  rw [endAttempt_of (by simpa [hk] using hw), countOutcome, hk]

/-- The read of a window and its timestamp leave every counter's room as it is. -/
theorem counterFits_windowRead {k : Counter} {s : State} (c : RunConfig) (f : ByteFrame)
    (hw : counterFits s.params.counterWidth (counterValue k s) = true) :
    counterFits (windowRead c f s).params.counterWidth (counterValue k (windowRead c f s)) = true := by
  rwa [windowRead_params, counterValue_windowRead]

/-- Settles O19: the window passes both checks, and the counter that fits goes up. -/
theorem runStepDeliversValidWindow : Obligations.RunStepDeliversValidWindow := by
  intro s c k lo hi crc ha hd hb h3 hw u x
  have hdecode : decodeFrame s.params.crcTable ⟨0x54, lo, hi, crc⟩ = .ok (decodedSample ⟨0x54, lo, hi, crc⟩) :=
    decodeFrame_eq_ok.mpr ⟨rfl, h3, rfl⟩
  have hsample : windowSample c ⟨0x54, lo, hi, crc⟩ s = x := by
    rw [windowSample, windowTime_stamped, rawCode_eq_append]
  rw [exec_runStep_of_attempting ha, attempt_full (f := ⟨0x54, lo, hi, crc⟩) hd hb, hdecode, hsample]
  simp only
  rw [endAttempt_counted (s := sinkEmit x _) (k := .valid) rfl (counterFits_windowRead (k := .valid) c _ hw),
    windowRead_stamped]
  cases hts : c.timestamps <;> simp [counterUp, sinkEmit, u, hts]

/-- Settles O20: the two checks in order; each rejection counts once and delivers nothing. -/
theorem runStepCountsRejectedWindow : Obligations.RunStepCountsRejectedWindow := by
  intro s c k f ha hd hb u
  refine ⟨fun h0 hw => ?_, fun h0 h3 hw => ?_⟩
  · rw [exec_runStep_of_attempting ha, attempt_full hd hb, decodeFrame_headerMismatch _ h0]
    simp only
    rw [endAttempt_counted (k := .headerMismatches) rfl (counterFits_windowRead c f hw), windowRead_stamped]
    cases hts : c.timestamps <;> simp [counterUp, u, hts]
  · rw [exec_runStep_of_attempting ha, attempt_full hd hb, decodeFrame_checksumFailed h0 (by rwa [h0])]
    simp only
    rw [endAttempt_counted (k := .checksumFailures) rfl (counterFits_windowRead c f hw), windowRead_stamped]
    cases hts : c.timestamps <;> simp [counterUp, u, hts]

/-- Settles O21: a short read ends as a Timeout that counts, a failed one as a TransportFailure that does not. -/
theorem runStepCountsReadErrors : Obligations.RunStepCountsReadErrors := by
  refine ⟨fun s c k n ha hd hn hlt hw => ?_, fun s c ha hd => ?_⟩
  · subst hn
    rw [exec_runStep_of_attempting ha, attempt_short hd hlt, consume_afterReadDraw,
      endAttempt_counted (k := .timeouts) rfl (by simpa [counterValue] using hw)]
    simp [counterUp]
  · rw [exec_runStep_of_attempting ha, attempt_failed hd, endAttempt_of (by simp [counterOf])]
    simp [countOutcome, counterOf]

/-! ### The accounting of an issued attempt -/

/-- The step of an issued RUN_STEP is that operation, the slot emptied, and the caller's turn (log 7, log 2). -/
theorem operated_of_issued {s t : State} (he : s.engineReq = encode .runStep) (h : step s = .next t) :
    ∃ u, Operated { s with engineReq := [] } .runStep u ∧ t = callerTurn u := by
  rw [step_issued he] at h
  obtain ⟨u, hu, ht⟩ := thenCaller_eq_next.mp h
  exact ⟨u, operated_of_next (i := .runStep) hu, ht⟩

/-- Settles O23: by the attempt's outcome; a TransportFailure, which counts nowhere, is the one that stops the run. -/
theorem eachAttemptIsAccountedOnce : Obligations.EachAttemptIsAccountedOnce := by
  intro s t he h
  obtain ⟨u, hop, rfl⟩ := operated_of_issued he h
  rw [callerTurn_eq]
  cases hop with
  | pure hi => cases hi
  | failed _ _ _ a =>
    obtain ⟨_, hevents, hv, hh, hc, ht, hsink, _⟩ := a
    refine .inr (.inr (.inr (.inr ⟨?_, ?_, rfl, rfl, hv, hh, hc, ht⟩)))
    · simp [hevents]
    · simpa [sampleOf] using hsink
  | @attempted _ o _ hp _ _ hn a =>
    have hphase := a.phase.trans hp
    obtain ⟨_, hevents, hv, hh, hc, ht, hsink, _⟩ := a
    cases o with
    | valid x => exact .inl ⟨x, hevents, hsink, hphase, hv, hh, hc, ht⟩
    | headerMismatch =>
      exact .inr (.inl ⟨hevents, hsink.trans (List.append_nil _), hphase, hv, hh, hc, ht⟩)
    | checksumFailed =>
      exact .inr (.inr (.inl ⟨hevents, hsink.trans (List.append_nil _), hphase, hv, hh, hc, ht⟩))
    | timeout =>
      exact .inr (.inr (.inr (.inl ⟨hevents, hsink.trans (List.append_nil _), hphase, hv, hh, hc, ht⟩)))
    | transportFailure => exact absurd rfl hn

/-! ### The check between two attempts -/

/-- A met budget stops the run, whatever CANCEL is (spec/43_pipeline.md R172). -/
theorem step_check_budget {s : State} {c : RunConfig} (he : s.engineReq = []) (hp : s.phase = .running)
    (ho : s.channelOpen = true) (hc : s.runConfig = some c) (hb : budgetMet c.budget s.valid = true) :
    step s = .next (callerTurn (stoppedBy .budgetReached s)) := by
  rw [step_check he hp, betweenFrames, configRead_of hc, if_pos hb, stopRun, stopWith_of ho]
  rfl

/-- With the budget not met, CANCEL = 1 stops the run. -/
theorem step_check_cancelled {s : State} {c : RunConfig} (he : s.engineReq = []) (hp : s.phase = .running)
    (ho : s.channelOpen = true) (hc : s.runConfig = some c) (hb : budgetMet c.budget s.valid = false)
    (hl : s.cancel = true) : step s = .next (callerTurn (stoppedBy .cancelled s)) := by
  rw [step_check he hp, betweenFrames, configRead_of hc, hb, hl]
  simp only [Bool.false_eq_true, if_false, if_true]
  rw [stopRun, stopWith_of ho]
  rfl

theorem budgetMet_of_le {budget : Option Nat} {n valid : Nat} (h : budget = some n) (hn : n ≤ valid) :
    budgetMet budget valid = true := by
  rw [h]
  exact decide_eq_true hn

theorem budgetMet_of_lt {budget : Option Nat} {valid : Nat} (h : ∀ n, budget = some n → valid < n) :
    budgetMet budget valid = false := by
  cases budget with
  | none => rfl
  | some n => exact decide_eq_false (Nat.not_le.mpr (h n rfl))

/-- Settles O24: the check's three branches in their order. -/
theorem budgetIsTestedBeforeCancel : Obligations.BudgetIsTestedBeforeCancel := by
  intro s c he hp ho hc
  refine ⟨fun n hb hn => step_check_budget he hp ho hc (budgetMet_of_le hb hn), fun hbelow => ⟨fun hl => ?_, fun hl => ?_⟩⟩
  · exact step_check_cancelled he hp ho hc (budgetMet_of_lt hbelow) hl
  · exact step_check_issues he hp hc (budgetMet_of_lt hbelow) hl

/-! ### CLOSE -/

theorem exec_close_of {s : State} (hp : isPermutation s.params.crcTable = true) :
    exec .close s = andThen (chanClose s) (finish .closed) :=
  needTable_of hp _

/-- Settles O26: CLOSE is the closing of the channel under an admitted table, and code 09 is the engine's. -/
theorem closeReleasesTheChannel : Obligations.CloseReleasesTheChannel := by
  refine ⟨fun s hp ho => ?_, fun s hp ho => ?_, fun _ => ⟨rfl, rfl⟩⟩
  · rw [exec_close_of hp, chanClose_of ho]
    rfl
  · rw [exec_close_of hp, chanClose_refused ho]
    rfl

/-! ### A stopped engine -/

/-- On a closed channel an operation completes only when it is pure (spec/10_state.md R34). -/
theorem Operated.pure_of_closed {s t : State} {i : Instr} (h : Operated s i t) (hclosed : s.channelOpen = false) :
    t = { s with acc := t.acc, result := t.result } ∧ (t.acc = s.acc ∨ t.acc = none) := by
  have hopen : s.channelOpen ≠ true := by simp [hclosed]
  cases h with
  | pure _ ht ha => exact ⟨ht, ha⟩
  | pulled _ ho => exact absurd ho hopen
  | attempted _ ho => exact absurd ho hopen
  | failed _ ho => exact absurd ho hopen
  | started _ ho => exact absurd ho hopen
  | inited _ ho => exact absurd ho hopen
  | initFailed _ ho => exact absurd ho hopen
  | closed ho => exact absurd ho hopen

/-- In STOPPED the engine's part of a step writes the returned value and takes a request, no more (spec/10_state.md R28). -/
theorem Stepped.frozen {s u : State} (h : Stepped s u) (l : Lifecycle s) (hp : s.phase = .stopped) :
    ∃ p q r, u = { s with program := p, requests := q, result := r } := by
  have hclosed : s.channelOpen = false := by
    simpa [hp] using l.openUntilStop
  have hrunning : s.phase ≠ .running := by simp [hp]
  have hslot : s.engineReq = [] := l.engineOwn.resolve_right fun h => hrunning h.2
  rcases h.kinds with rfl | ⟨_, _, _, hr, _⟩ | ⟨hr, _⟩ | ⟨i, s1, htook, hop⟩
  · exact ⟨_, _, _, rfl⟩
  · exact absurd hr hrunning
  · exact absurd hr hrunning
  · have hs1 := htook.state
    obtain ⟨hu, hacc⟩ := hop.pure_of_closed ((congrArg State.channelOpen hs1).trans hclosed)
    have hnone : u.acc = s.acc := by
      rw [congrArg State.acc hs1, l.accFree, or_self] at hacc
      rw [hacc, l.accFree]
    refine ⟨s1.program, s1.requests, u.result, ?_⟩
    rw [hu, hs1]
    simp [hnone, hslot]

/-- Settles O45: the channel is closed in STOPPED, so only pure operations complete. -/
theorem stoppedEngineIsFrozen : Obligations.StoppedEngineIsFrozen := by
  intro s t l hp h
  obtain ⟨u, hu, rfl⟩ := stepped_of_next h
  obtain ⟨p, q, r, rfl⟩ := hu.frozen l hp
  rw [callerTurn_program, callerTurn_requests, callerTurn_result]
  exact callerTurn_eq _

/-! ### When a step completes -/

/-- The check between two attempts always completes, on an open channel with a latched configuration. -/
theorem step_check_completes {s : State} {c : RunConfig} (he : s.engineReq = []) (hp : s.phase = .running)
    (ho : s.channelOpen = true) (hc : s.runConfig = some c) : ∃ t, step s = .next t := by
  cases hb : budgetMet c.budget s.valid with
  | true => exact ⟨_, step_check_budget he hp ho hc hb⟩
  | false =>
    cases hl : s.cancel with
    | true => exact ⟨_, step_check_cancelled he hp ho hc hb hl⟩
    | false => exact ⟨_, step_check_issues he hp hc hb hl⟩

/-- An issued attempt always completes when the counters have no width, whatever its read gives. -/
theorem step_issued_completes {s : State} {c : RunConfig} (he : s.engineReq = encode .runStep) (ha : Attempting s c)
    (hw : s.params.counterWidth = none) : ∃ t, step s = .next t := by
  obtain ⟨hadmitted, hrunning, hchannel, hconfig⟩ := ha
  have hslot : Attempting { s with engineReq := [] } c := ⟨hadmitted, hrunning, hchannel, hconfig⟩
  obtain ⟨t, ht⟩ := attempt_completes (s := { s with engineReq := [] }) c hw
  have hexec : exec .runStep { s with engineReq := [] } = .next t := (exec_runStep_of_attempting hslot).trans ht
  obtain ⟨_, _, _, hnext⟩ := stepRunsTheEnginesRequest s .runStep [] (by simp [he, encode]) (by rw [he]; rfl)
  obtain ⟨hgoesOn, hstops⟩ := hnext t hexec rfl
  by_cases hr : t.result = some (.attempt .transportFailure)
  · exact ⟨_, hstops hr⟩
  · exact ⟨_, hgoesOn hr⟩

/-- Settles O51: a running engine is at a check or at an issued attempt, and both complete. -/
theorem runningEngineAlwaysGoesOn : Obligations.RunningEngineAlwaysGoesOn := by
  intro s l hw hp
  have ho : s.channelOpen = true := l.openUntilStop.mpr (by simp [hp])
  obtain ⟨c, hc⟩ := Option.isSome_iff_exists.mp (l.latchedInRun hp)
  rcases l.engineOwn with he | ⟨he, _⟩
  · exact step_check_completes he hp ho hc
  · exact step_issued_completes he ⟨l.admitted, hp, ho, hc⟩ hw

end Sys2Proof.Machine
end

section
/-! PROOFS. CANCEL is read by the check between two attempts alone (spec/43_pipeline.md R172, spec/60_exceptions.md R231). -/

namespace Sys2Proof.Machine

open Sys2Proof.Safety

/-! ### What commutes with another level of CANCEL -/

/-- The state with CANCEL at `level` and `levels` to come. -/
def setCancel (level : Bool) (levels : List Bool) (s : State) : State := { s with cancel := level, cancelInputs := levels }

/-- The same answer, with CANCEL at `level` and `levels` to come in its next state. -/
def answerCancel (level : Bool) (levels : List Bool) (o : Answer) : Answer :=
  andThen o fun t => .next (setCancel level levels t)

@[simp] theorem answerCancel_next (level : Bool) (levels : List Bool) (s : State) :
    answerCancel level levels (.next s) = .next (setCancel level levels s) := rfl

/-- What follows commutes when it commutes from the state reached. -/
theorem andThen_answerCancel {level : Bool} {levels : List Bool} {o : Answer} {k : State → Answer}
    (hk : ∀ s, k (setCancel level levels s) = answerCancel level levels (k s)) :
    andThen (answerCancel level levels o) k = answerCancel level levels (andThen o k) := by
  cases o with
  | next s => exact hk s
  | fault r => rfl
  | refused r => rfl

section
variable (level : Bool) (levels : List Bool) (s : State)

/-! #### Guards and reads -/

theorem needTable_setCancel {body body' : Answer} (h : body' = answerCancel level levels body) :
    needTable (setCancel level levels s) body' = answerCancel level levels (needTable s body) := by
  by_cases hp : isPermutation s.params.crcTable = true
  · rw [needTable_of hp, needTable_of (s := setCancel level levels s) hp, h]
  · rw [needTable_refused hp, needTable_refused (s := setCancel level levels s) hp]; rfl

theorem needPhase_setCancel (p : Phase) {body body' : Answer} (h : body' = answerCancel level levels body) :
    needPhase p (setCancel level levels s) body' = answerCancel level levels (needPhase p s body) := by
  by_cases hp : s.phase = p
  · rw [needPhase_of hp, needPhase_of (s := setCancel level levels s) hp, h]
  · rw [needPhase_refused hp, needPhase_refused (s := setCancel level levels s) hp]; rfl

theorem needChannel_setCancel {body body' : Answer} (h : body' = answerCancel level levels body) :
    needChannel (setCancel level levels s) body' = answerCancel level levels (needChannel s body) := by
  cases ho : s.channelOpen with
  | true => rw [needChannel_of ho, needChannel_of (s := setCancel level levels s) ho, h]
  | false => rw [needChannel_refused ho, needChannel_refused (s := setCancel level levels s) ho]; rfl

theorem configRead_setCancel {k k' : RunConfig → Answer} (h : ∀ c, k' c = answerCancel level levels (k c)) :
    configRead (setCancel level levels s) k' = answerCancel level levels (configRead s k) := by
  unfold configRead
  show (match s.runConfig with | some c => k' c | none => _) = _
  cases s.runConfig with
  | none => rfl
  | some c => exact h c

theorem frameRead_setCancel {k k' : ByteFrame → Answer} (h : ∀ f, k' f = answerCancel level levels (k f)) :
    frameRead (setCancel level levels s) k' = answerCancel level levels (frameRead s k) := by
  unfold frameRead
  show (match s.frame with | some f => k' f | none => _) = _
  cases s.frame with
  | none => rfl
  | some f => exact h f

/-! #### The shared operations -/

theorem afterReadDraw_setCancel : afterReadDraw (setCancel level levels s) = setCancel level levels (afterReadDraw s) := by
  cases h : s.readDraws <;> simp [afterReadDraw, setCancel, h]

theorem afterWriteDraw_setCancel :
    afterWriteDraw (setCancel level levels s) = setCancel level levels (afterWriteDraw s) := by
  cases h : s.writeDraws <;> simp [afterWriteDraw, setCancel, h]

theorem tickClock_setCancel : tickClock (setCancel level levels s) = setCancel level levels (tickClock s) := by
  cases h : s.clockDraws <;> simp [tickClock, setCancel, h]

theorem count_setCancel (c : Counter) :
    count c (setCancel level levels s) = answerCancel level levels (count c s) := by
  have hcount : counterUp c (setCancel level levels s) = setCancel level levels (counterUp c s) := by cases c <;> rfl
  have hvalue : counterValue c (setCancel level levels s) = counterValue c s := by cases c <;> rfl
  cases h : counterFits s.params.counterWidth (counterValue c s) with
  | true => rw [count_of h, count_of (hvalue ▸ h), hcount]; rfl
  | false => rw [count_overflow h, count_overflow (hvalue ▸ h)]; rfl

theorem chanClose_setCancel : chanClose (setCancel level levels s) = answerCancel level levels (chanClose s) :=
  needChannel_setCancel _ _ _ rfl

theorem stopWith_setCancel (reason : StopReason) (r : OpResult) :
    stopWith reason r (setCancel level levels s) = answerCancel level levels (stopWith reason r s) := by
  have hclose := chanClose_setCancel level levels { s with stopReason := reason }
  exact (congrArg (andThen · _) hclose).trans (andThen_answerCancel fun _ => rfl)

theorem endAttempt_setCancel (o : AttemptOutcome) :
    endAttempt o (setCancel level levels s) = answerCancel level levels (endAttempt o s) := by
  unfold endAttempt
  cases counterOf o with
  | none => rfl
  | some c =>
    simp only [count_setCancel]
    exact andThen_answerCancel fun _ => rfl

theorem pullFrame_setCancel :
    pullFrame (setCancel level levels s) = ((pullFrame s).1, setCancel level levels (pullFrame s).2) := by
  rcases pullFrame_cases s with ⟨hd, h⟩ | ⟨k, n, hd, hl, hn, h⟩ | ⟨k, f, hd, hb, h⟩
  · rw [h, pullFrame_failed (s := setCancel level levels s) hd, afterReadDraw_setCancel]; rfl
  · subst hl
    rw [h, pullFrame_short (s := setCancel level levels s) hd hn, afterReadDraw_setCancel]; rfl
  · rw [h, pullFrame_full (s := setCancel level levels s) hd hb, afterReadDraw_setCancel]; rfl

theorem stamp_setCancel (enabled : Bool) :
    stamp enabled (setCancel level levels s) = ((stamp enabled s).1, setCancel level levels (stamp enabled s).2) := by
  cases enabled with
  | false => rfl
  | true => simp only [stamp, if_true, tickClock_setCancel]; rfl

theorem decodeAttempt_setCancel (t : Option Nat) :
    decodeAttempt t (setCancel level levels s) = answerCancel level levels (decodeAttempt t s) := by
  refine frameRead_setCancel level levels s fun f => ?_
  have hparams : (setCancel level levels s).params = s.params := rfl
  rw [hparams]
  cases decodeFrame s.params.crcTable f with
  | ok x => exact endAttempt_setCancel level levels (sinkEmit { x with capturedAt := t } s) _
  | err e =>
    cases e with
    | headerMismatch => exact endAttempt_setCancel ..
    | checksumFailed => exact endAttempt_setCancel ..

theorem attempt_setCancel (c : RunConfig) :
    attempt c (setCancel level levels s) = answerCancel level levels (attempt c s) := by
  unfold attempt
  rw [pullFrame_setCancel]
  obtain ⟨r, s1⟩ := pullFrame s
  cases r with
  | ok w =>
    simp only [stamp_setCancel]
    exact decodeAttempt_setCancel ..
  | err e =>
    cases e with
    | timeout => exact endAttempt_setCancel ..
    | transportFailure => exact endAttempt_setCancel ..
theorem sendCommand_setCancel (mode : Mode) :
    sendCommand mode (setCancel level levels s) =
      ((sendCommand mode s).1, setCancel level levels (sendCommand mode s).2) := by
  have hdraw : writeDraw (setCancel level levels s) = writeDraw s := rfl
  unfold sendCommand chanWrite
  rw [hdraw, afterWriteDraw_setCancel]
  cases writeDraw s <;> rfl

/-! #### The operations -/

theorem execInitMode_setCancel (mode : Mode) :
    execInitMode mode (setCancel level levels s) = answerCancel level levels (execInitMode mode s) := by
  refine needTable_setCancel _ _ _ (needPhase_setCancel _ _ _ _ (needChannel_setCancel _ _ _ ?_))
  rw [sendCommand_setCancel]
  obtain ⟨a, s1⟩ := sendCommand mode s
  cases a with
  | ok => rfl
  | fail => exact stopWith_setCancel ..

theorem execCrcCompute_setCancel (data : List Byte) (len : Nat) :
    execCrcCompute data len (setCancel level levels s) = answerCancel level levels (execCrcCompute data len s) := by
  refine needTable_setCancel _ _ _ ?_
  split
  · rfl
  · rw [accFeed_of _ (s := accStart s) rfl, accFeed_of _ (s := accStart (setCancel level levels s)) rfl]
    rfl

theorem exec_setCancel (i : Instr) :
    exec i (setCancel level levels s) = answerCancel level levels (exec i s) := by
  cases i with
  | crcStep acc b => exact needTable_setCancel _ _ _ rfl
  | crcCompute data len => exact execCrcCompute_setCancel ..
  | decode b0 b1 b2 b3 => exact needTable_setCancel _ _ _ rfl
  | classify code => exact needTable_setCancel _ _ _ rfl
  | nextFrame =>
    refine needTable_setCancel _ _ _ (needPhase_setCancel _ _ _ _ (needChannel_setCancel _ _ _ ?_))
    rw [pullFrame_setCancel]
    rfl
  | runStep =>
    exact needTable_setCancel _ _ _ (needPhase_setCancel _ _ _ _ (needChannel_setCancel _ _ _
      (configRead_setCancel _ _ _ (attempt_setCancel level levels s))))
  | run budget ts resync =>
    refine needTable_setCancel _ _ _ ?_
    cases resync with
    | headerHunt => rfl
    | wholeFrameDiscard => exact needPhase_setCancel _ _ _ _ (needChannel_setCancel _ _ _ rfl)
  | initMode mode => exact execInitMode_setCancel ..
  | close =>
    refine needTable_setCancel _ _ _ ?_
    rw [chanClose_setCancel]
    exact andThen_answerCancel fun _ => rfl

theorem afterAttempt_setCancel :
    afterAttempt (setCancel level levels s) = answerCancel level levels (afterAttempt s) := by
  by_cases hr : s.result = some (.attempt .transportFailure)
  · rw [afterAttempt_stops hr, afterAttempt_stops (s := setCancel level levels s) hr]
    exact stopWith_setCancel ..
  · rw [afterAttempt_goes_on hr, afterAttempt_goes_on (s := setCancel level levels s) hr]
    rfl

theorem afterOp_setCancel (i : Instr) :
    afterOp i (exec i (setCancel level levels s)) = answerCancel level levels (afterOp i (exec i s)) := by
  rw [exec_setCancel]
  by_cases hi : i = .runStep
  · subst hi
    exact andThen_answerCancel (afterAttempt_setCancel level levels)
  · rw [afterOp_of_ne hi, afterOp_of_ne hi]

/-! #### The step -/

/-- Image bytes decode to one operation, run from a state that differs in CANCEL alone. -/
theorem engineStep_setCancel_of_fetchFrom {who : Issuer} {bytes : List Byte} {taken : List Byte → State}
    (h : fetch s = fetchFrom who bytes taken)
    (h' : fetch (setCancel level levels s) = fetchFrom who bytes fun rest => setCancel level levels (taken rest)) :
    engineStep (setCancel level levels s) = answerCancel level levels (engineStep s) := by
  unfold engineStep
  rw [h, h']
  unfold fetchFrom
  cases decodeOp who bytes with
  | error r => rfl
  | ok p => exact afterOp_setCancel level levels (taken p.2) p.1

/-- With an operation issued or no run in progress, what the engine does in its step does not depend on CANCEL. -/
theorem engineStep_setCancel (h : s.engineReq ≠ [] ∨ s.phase ≠ .running) :
    engineStep (setCancel level levels s) = answerCancel level levels (engineStep s) := by
  by_cases he : s.engineReq = []
  · have hp := h.resolve_left (not_not.mpr he)
    by_cases hl : s.program = []
    · unfold engineStep
      cases hr : s.requests with
      | nil =>
        rw [fetch_idle he hp hl hr, fetch_idle (s := setCancel level levels s) he hp hl hr]
        rfl
      | cons i rest =>
        rw [fetch_request he hp hl hr, fetch_request (s := setCancel level levels s) he hp hl hr]
        unfold takeRequest
        cases i.issuer with
        | caller => exact afterOp_setCancel level levels { s with requests := rest } i
        | engine => rfl
    · exact engineStep_setCancel_of_fetchFrom _ _ _ (fetch_caller he hp hl)
        (fetch_caller (s := setCancel level levels s) he hp hl)
  · exact engineStep_setCancel_of_fetchFrom _ _ _ (fetch_engine he) (fetch_engine (s := setCancel level levels s) he)

/-- The caller's turn sets CANCEL anew, whatever it was (log 2). -/
theorem callerTurn_setCancel : callerTurn (setCancel level s.cancelInputs s) = callerTurn s := by
  cases h : s.cancelInputs <;> simp [callerTurn, setCancel, h]

end

/-- Settles O52: every part of an operation commutes with another CANCEL, and the caller's turn overwrites it. -/
theorem cancelIsUnseenInsideOperations : Obligations.CancelIsUnseenInsideOperations := by
  refine ⟨fun i s level levels => exec_setCancel level levels s i, fun s level h => ?_⟩
  have hengine := engineStep_setCancel level s.cancelInputs s h
  show thenCaller (engineStep (setCancel level s.cancelInputs s)) = thenCaller (engineStep s)
  rw [hengine]
  cases hs : engineStep s with
  | next u =>
    obtain ⟨_, _, hlevels⟩ := (stepped_of_engineStep hs).inputs_unchanged
    rw [answerCancel_next, thenCaller_next, thenCaller_next, ← hlevels, callerTurn_setCancel]
  | fault r => rfl
  | refused r => rfl

end Sys2Proof.Machine
end

section
/-! PROOFS. Whole runs: on a silent channel without end, and with a budget from the caller's request to the summary
(spec/43_pipeline.md R170, R175, R179, R180). -/

namespace Sys2Proof.Machine

open Sys2Proof.Safety

/-! ### One turn of the loop that goes on -/

/-- The check finds the budget not met and CANCEL 0, and the attempt it issues does not fail: two steps (log 1). -/
theorem run_turn {s t : State} {c : RunConfig} (k : Nat) (he : s.engineReq = []) (ha : Attempting s c)
    (hb : budgetMet c.budget s.valid = false) (hl : s.cancel = false) (h : attempt c (issuedAttempt s) = .next t)
    (ht : t.result ≠ some (.attempt .transportFailure)) :
    Host.Core.run Sys2Proof.core (k + 2) s = Host.Core.run Sys2Proof.core k (callerTurn t) := by
  obtain ⟨hadmitted, hrunning, hchannel, hconfig⟩ := ha
  have hissued : Attempting (callerTurn (issueRunStep s)) c := by constructor <;> simpa [Admitted]
  rw [run_succ (k + 1) (step_check_issues he hrunning hconfig hb hl), run_succ k (step_issued_goes_on (by simp) hissued h ht)]

/-! ### A silent channel -/

/-- The state an attempt leaves whose read gave no byte. -/
def emptyReadRecorded (s : State) : State :=
  { afterReadDraw s with
    frame := none
    timeouts := s.timeouts + 1
    events := s.events ++ [.attempt .timeout]
    result := some (.attempt .timeout) }

theorem attempt_empty {s : State} (c : RunConfig) (hw : s.params.counterWidth = none) (hd : readDraw s = .bytes 0) :
    attempt c s = .next (emptyReadRecorded s) := by
  have hnone : (streamTake (min 0 4) s).length = 0 := Nat.le_zero.mp (streamTake_length_le 0 s)
  rw [attempt_short hd (by rw [hnone]; decide), hnone, endAttempt_counted (k := .timeouts) rfl (by simp [hw])]
  simp [emptyReadRecorded, counterUp, consume]

/-- The state after the two steps of one empty read: its check and its attempt, each with the caller's turn. -/
def silentTurn (s : State) : State := callerTurn (emptyReadRecorded (issuedAttempt s))

/-- What an empty read's two steps change, and no other field. -/
theorem silentTurn_eq {s : State} (he : s.engineReq = []) :
    silentTurn s = { s with
      frame := none
      timeouts := s.timeouts + 1
      events := s.events ++ [.attempt .timeout]
      result := some (.attempt .timeout)
      readDraws := s.readDraws.tail
      cancel := (silentTurn s).cancel
      cancelInputs := s.cancelInputs.tail.tail
      drawNo := (silentTurn s).drawNo } := by
  rw [silentTurn, callerTurn_eq]
  simp [emptyReadRecorded, issuedAttempt, he]

/-- A running engine between two attempts, without budget or counter width, with `k` empty reads ready and CANCEL 0 at the
check before each of them. -/
structure Silent (s : State) (c : RunConfig) (k : Nat) : Prop where
  attempting : Attempting s c
  unbudgeted : c.budget = none
  unbounded : s.params.counterWidth = none
  slot : s.engineReq = []
  readDraws : List.replicate k (.bytes 0) <+: s.readDraws
  levels : ∀ j < k, (s.cancel :: s.cancelInputs)[2 * j]? = some false

theorem Silent.run_silentTurn {s : State} {c : RunConfig} {k : Nat} (h : Silent s c (k + 1)) (m : Nat) :
    Host.Core.run Sys2Proof.core (m + 2) s = Host.Core.run Sys2Proof.core m (silentTurn s) := by
  have hcancel : s.cancel = false := by simpa using h.levels 0 (by simp)
  obtain ⟨ds, hds⟩ := h.readDraws
  have hdraw : readDraw (issuedAttempt s) = .bytes 0 := by
    simp [readDraw, issuedAttempt, ← hds, List.replicate_succ]
  have hattempt : attempt c (issuedAttempt s) = .next (emptyReadRecorded (issuedAttempt s)) :=
    attempt_empty c (by simpa [issuedAttempt] using h.unbounded) hdraw
  exact run_turn m h.slot h.attempting (by rw [h.unbudgeted]; rfl) hcancel hattempt (by simp [emptyReadRecorded])

theorem Silent.after_silentTurn {s : State} {c : RunConfig} {k : Nat} (h : Silent s c (k + 1)) : Silent (silentTurn s) c k := by
  have hlevels : ∀ j < k, ((silentTurn s).cancel :: (silentTurn s).cancelInputs)[2 * j]? = some false := by
    intro j hj
    have hissued := levels_callerTurn (s := issueRunStep s) (n := 2 * j + 1) (h.levels (j + 1) (by omega))
    exact levels_callerTurn (by simpa [emptyReadRecorded, issuedAttempt] using hissued)
  obtain ⟨⟨hadmitted, hrunning, hchannel, hconfig⟩, hb, hw, he, ⟨ds, hds⟩, _⟩ := h
  rw [silentTurn_eq he] at hlevels ⊢
  exact ⟨⟨hadmitted, hrunning, hchannel, hconfig⟩, hb, hw, he, ⟨ds, by rw [← hds]; rfl⟩, hlevels⟩

/-- The loop over `k` empty reads: a Timeout each, and nothing taken from the stream. -/
theorem Silent.run_timeouts {s : State} {c : RunConfig} {k : Nat} (h : Silent s c k) :
    ∃ t, Host.Core.run Sys2Proof.core (2 * k) s = .next t ∧ t.phase = .running ∧ t.timeouts = s.timeouts + k ∧
      t.cursor = s.cursor ∧ t.events = s.events ++ List.replicate k (.attempt .timeout) := by
  induction k generalizing s with
  | zero => exact ⟨s, run_zero s, h.attempting.running, rfl, rfl, by simp⟩
  | succ k ih =>
    obtain ⟨t, ht, hphase, htimeouts, hcursor, hevents⟩ := ih h.after_silentTurn
    rw [silentTurn_eq h.slot] at htimeouts hcursor hevents
    refine ⟨t, (h.run_silentTurn _).trans ht, hphase, ?_, hcursor, ?_⟩
    · simp only at htimeouts
      omega
    · simpa [List.replicate_succ] using hevents

/-- Settles O54: by induction over the empty reads, two steps and one Timeout each. -/
theorem silentChannelRunsOn : Obligations.SilentChannelRunsOn := by
  intro k s c draws ha hb hw he hd hl
  exact Silent.run_timeouts ⟨ha, hb, hw, he, ⟨draws, hd.symm⟩, hl⟩

/-! ### Windows that pass both checks -/

/-- The frame passes both checks under the table `t` (spec/30_encoding.md R74). -/
def PassesChecks (t : Table) (f : ByteFrame) : Prop := f.b0 = Config.header ∧ crcOf t [f.b0, f.b1, f.b2] = f.b3

theorem outcomeOf_of_passesChecks {t : Table} {f : ByteFrame} (h : PassesChecks t f) :
    outcomeOf t f = .valid (decodedSample f) := by
  have hok : decodeFrame t f = .ok (decodedSample f) := decodeFrame_eq_ok.mpr ⟨h.1, h.2, rfl⟩
  rcases outcomeOf_cases t f with ⟨hd, _⟩ | ⟨hd, _⟩ | ⟨_, ho⟩
  · rw [hok] at hd; cases hd
  · rw [hok] at hd; cases hd
  · exact ho

theorem windowEvents_of_passesChecks {t : Table} {fs : List ByteFrame} (h : ∀ f ∈ fs, PassesChecks t f) :
    windowEvents t fs = fs.map fun f => .attempt (.valid (decodedSample f)) :=
  List.map_congr_left fun f hf => by rw [outcomeOf_of_passesChecks (h f hf)]

/-- Windows that pass count as valid and as nothing else (spec/43_pipeline.md R173). -/
theorem tally_of_passesChecks {t : Table} {fs : List ByteFrame} (h : ∀ f ∈ fs, PassesChecks t f) (k : Counter) :
    tally k (windowEvents t fs) = if k = .valid then fs.length else 0 := by
  rw [windowEvents_of_passesChecks h, tally, List.countP_map]
  cases k <;> simp [Function.comp_def, counterOfEvent, counterOf]

theorem sampled_of_passesChecks {t : Table} {fs : List ByteFrame} (h : ∀ f ∈ fs, PassesChecks t f) :
    (windowEvents t fs).filterMap sampleOf = fs.map decodedSample := by
  rw [windowEvents_of_passesChecks h, List.filterMap_map]
  simp [Function.comp_def, sampleOf]

/-! ### A budgeted run over valid windows -/

/-- A running engine between two attempts, without timestamps or counter width, whose budget is met by the valid windows
`fs` that come next, with CANCEL 0 at the check before each of them. -/
structure Budgeted (s : State) (c : RunConfig) (fs : List ByteFrame) : Prop where
  attempting : Attempting s c
  budget : c.budget = some (s.valid + fs.length)
  untimed : c.timestamps = false
  unbounded : s.params.counterWidth = none
  slot : s.engineReq = []
  input : fs.flatMap frameBytes <+: s.input
  readDraws : List.replicate fs.length (.bytes 4) <+: s.readDraws
  levels : ∀ j < fs.length, (s.cancel :: s.cancelInputs)[2 * j]? = some false
  passing : ∀ f ∈ fs, PassesChecks s.params.crcTable f

theorem Budgeted.run_windowTurn {s : State} {c : RunConfig} {f : ByteFrame} {fs : List ByteFrame}
    (h : Budgeted s c (f :: fs)) (k : Nat) :
    Host.Core.run Sys2Proof.core (k + 2) s = Host.Core.run Sys2Proof.core k (windowTurn f s) := by
  have hcancel : s.cancel = false := by simpa using h.levels 0 (by simp)
  obtain ⟨ds, hds⟩ := h.readDraws
  obtain ⟨bs, hbs⟩ := h.input
  have hbelow : budgetMet c.budget s.valid = false := by
    refine budgetMet_of_lt fun n hn => ?_
    rw [h.budget] at hn
    cases hn
    simp
  have hattempt : attempt c (issuedAttempt s) = .next (windowRecorded f (issuedAttempt s)) := by
    refine attempt_full_untimed (k := 4) h.untimed (by simpa [issuedAttempt] using h.unbounded) ?_ ?_
    · simp [readDraw, issuedAttempt, ← hds, List.replicate_succ]
    · rw [streamTake_listed] <;> simp [issuedAttempt, ← hbs, frameBytes]
  exact run_turn k h.slot h.attempting hbelow hcancel hattempt (by simpa [windowRecorded] using outcomeOf_ne_transportFailure _ f)

theorem Budgeted.after_windowTurn {s : State} {c : RunConfig} {f : ByteFrame} {fs : List ByteFrame}
    (h : Budgeted s c (f :: fs)) : Budgeted (windowTurn f s) c fs := by
  have hlevels : ∀ j < fs.length, ((windowTurn f s).cancel :: (windowTurn f s).cancelInputs)[2 * j]? = some false :=
    fun j hj => levels_windowTurn f (h.levels (j + 1) (by simpa using hj))
  obtain ⟨⟨hadmitted, hrunning, hchannel, hconfig⟩, hb, hts, hw, he, ⟨bs, hbs⟩, ⟨ds, hds⟩, _, hpass⟩ := h
  have hcounted : tally .valid (windowEvents s.params.crcTable [f]) = 1 :=
    tally_of_passesChecks (fs := [f]) (by simpa using hpass f (by simp)) .valid
  rw [windowTurn_eq he] at hlevels ⊢
  refine ⟨⟨hadmitted, hrunning, hchannel, hconfig⟩, ?_, hts, hw, he, ⟨bs, by rw [← hbs]; rfl⟩,
    ⟨ds, by rw [← hds]; rfl⟩, hlevels, fun g hg => hpass g (by simp [hg])⟩
  rw [hb, hcounted, List.length_cons, Nat.add_assoc, Nat.add_comm 1]

/-- The loop over the valid windows of a budget: it is met when they are used up. -/
theorem Budgeted.run_accounted {c : RunConfig} {fs : List ByteFrame} {s : State} (h : Budgeted s c fs) :
    ∃ t, (∀ k, Host.Core.run Sys2Proof.core (2 * fs.length + k) s = Host.Core.run Sys2Proof.core k t) ∧
      Accounted fs s t ∧ Budgeted t c [] := by
  induction fs generalizing s with
  | nil => exact ⟨s, fun k => by simp, by constructor <;> simp [windowEvents, tally, h.attempting.running], h⟩
  | cons f fs ih =>
    obtain ⟨t, ht, hrest, hmet⟩ := ih h.after_windowTurn
    refine ⟨t, fun k => ?_, (windowTurn_accounted h.slot h.attempting.running f).trans hrest, hmet⟩
    rw [← ht k, ← h.run_windowTurn, List.length_cons]
    congr 1
    omega

/-- Once the budget is met, the next check stops the run (spec/43_pipeline.md R172, R175). -/
theorem Budgeted.step_stops {s : State} {c : RunConfig} (h : Budgeted s c []) :
    step s = .next (callerTurn (stoppedBy .budgetReached s)) := by
  obtain ⟨_, hrunning, hchannel, hconfig⟩ := h.attempting
  exact step_check_budget h.slot hrunning hchannel hconfig (budgetMet_of_le h.budget le_rfl)

/-! ### From the caller's request -/

theorem exec_run_of {s : State} (hp : isPermutation s.params.crcTable = true) (hr : s.phase = .ready)
    (ho : s.channelOpen = true) (budget : Option Nat) (ts : Bool) :
    exec (.run budget ts .wholeFrameDiscard) s = .next (startRun budget ts s) :=
  (needTable_of hp _).trans ((needPhase_of hr _).trans (needChannel_of ho _))

/-- A READY engine starts the run the caller requests first, as image bytes or by value (spec/30_encoding.md R92, R94). -/
theorem step_starts_run {s : State} {n : Nat} {more : List Byte} {later : List Instr} (l : Lifecycle s)
    (hr : s.phase = .ready)
    (hreq : (n < 4294967296 ∧ s.program = encode (.run (some n) false .wholeFrameDiscard) ++ more) ∨
      (s.program = [] ∧ s.requests = .run (some n) false .wholeFrameDiscard :: later)) :
    ∃ p q, step s = .next (callerTurn (startRun (some n) false { s with program := p, requests := q })) := by
  have hrunning : s.phase ≠ .running := by simp [hr]
  have hslot : s.engineReq = [] := l.engineOwn.resolve_right fun h => hrunning h.2
  have ho : s.channelOpen = true := l.openUntilStop.mpr (by simp [hr])
  have hexec : ∀ p q, exec (.run (some n) false .wholeFrameDiscard) { s with program := p, requests := q } =
      .next (startRun (some n) false { s with program := p, requests := q }) :=
    fun p q => exec_run_of (s := { s with program := p, requests := q }) l.admitted hr ho (some n) false
  obtain ⟨himage, hvalue, _⟩ := stepRunsTheCallersRequest
  rcases hreq with ⟨hn, hprog⟩ | ⟨hprog, hreqs⟩
  · have hdecode : decodeOp .caller s.program = .ok (.run (some n) false .wholeFrameDiscard, more) := by
      rw [hprog]
      exact decodeUndoesEncode (.run (some n) false .wholeFrameDiscard) more rfl (decide_eq_true hn)
    exact ⟨more, s.requests, (himage s _ more hslot hrunning hdecode).trans (congrArg thenCaller (hexec _ _))⟩
  · exact ⟨s.program, later, (hvalue s _ later hslot hrunning hprog hreqs rfl).trans (congrArg thenCaller (hexec _ _))⟩

/-- The state RUN's start leaves, with as many valid windows coming as the budget asks for. -/
theorem budgeted_of_started {s : State} {fs : List ByteFrame} (hadmitted : isPermutation s.params.crcTable = true)
    (ho : s.channelOpen = true) (hw : s.params.counterWidth = none) (he : s.engineReq = [])
    (hin : fs.flatMap frameBytes <+: s.input) (hd : List.replicate fs.length (.bytes 4) <+: s.readDraws)
    (hl : ∀ j < fs.length, (s.cancel :: s.cancelInputs)[2 * j + 1]? = some false)
    (hpass : ∀ f ∈ fs, PassesChecks s.params.crcTable f) :
    Budgeted (callerTurn (startRun (some fs.length) false s))
      { budget := some fs.length, timestamps := false, resync := .wholeFrameDiscard } fs := by
  have hlevels := fun j hj => levels_callerTurn (s := startRun (some fs.length) false s) (hl j hj)
  rw [callerTurn_eq] at hlevels ⊢
  exact ⟨⟨hadmitted, rfl, ho, rfl⟩, by simp [startRun], rfl, hw, he, hin, hd, hlevels, hpass⟩

/-- Settles O56: the start, two steps a window, and the check that finds the budget met. -/
theorem budgetedRunCompletes : Obligations.BudgetedRunCompletes := by
  intro fs s more rest later draws l hr hw hreq hpass hin hd hl
  obtain ⟨p, q, hstart⟩ := step_starts_run l hr hreq
  obtain ⟨hcursor, _, _, hsink, _⟩ := l.beforeRun (.inr hr)
  have hslot : s.engineReq = [] := l.engineOwn.resolve_right fun h => by simp [hr] at h
  have hbudgeted := budgeted_of_started (s := { s with program := p, requests := q }) l.admitted
    (l.openUntilStop.mpr (by simp [hr])) hw hslot ⟨rest, hin.symm⟩ ⟨draws, hd.symm⟩ hl hpass
  obtain ⟨t, hrun, acc, hmet⟩ := hbudgeted.run_accounted
  have hinput : t.input = rest := by
    rw [acc.input, callerTurn_input]
    show s.input.drop (4 * fs.length) = rest
    rw [hin]
    exact List.drop_left' (by simp [List.length_flatMap, Nat.mul_comm])
  have hsummary : summary t = ⟨fs.length, 0, 0, 0⟩ := by
    have hcounts : ∀ k, counterValue k t = if k = .valid then fs.length else 0 := by
      intro k
      rw [acc.counts, tally_of_passesChecks hbudgeted.passing]
      cases k <;> simp [counterValue, startRun]
    simpa [summary, counterValue] using
      (⟨hcounts .valid, hcounts .headerMismatches, hcounts .checksumFailures, hcounts .timeouts⟩ : _ ∧ _ ∧ _ ∧ _)
  have hall := (run_succ (2 * fs.length + 1) hstart).trans ((hrun 1).trans (run_succ 0 hmet.step_stops))
  refine ⟨callerTurn (stoppedBy .budgetReached t), hall, ?_⟩
  rw [callerTurn_eq]
  refine ⟨rfl, rfl, rfl, ?_, hinput, by simp [stoppedBy, hsummary], ?_⟩
  · show t.cursor = 4 * fs.length
    simp [acc.cursor, startRun, hcursor]
  · show t.sink = fs.map decodedSample
    rw [acc.sink, sampled_of_passesChecks hbudgeted.passing]
    simp [startRun, hsink]

end Sys2Proof.Machine
end

section
/-! PROOFS. The mode initializer: the mode reaches INIT_MODE only as the command it sends (spec/44_mode_init.md R200). -/

namespace Sys2Proof.Machine

/-- What is sent depends on the mode through its command bytes alone. -/
theorem sendCommand_congr {m n : Mode} {s : State} (h : modeCommand m s.params = modeCommand n s.params) :
    sendCommand m s = sendCommand n s := by
  unfold sendCommand
  rw [h]

theorem execInitMode_congr {m n : Mode} {s : State} (h : modeCommand m s.params = modeCommand n s.params) :
    execInitMode m s = execInitMode n s := by
  unfold execInitMode
  rw [sendCommand_congr h]

/-- Settles O29: the two modes' commands are the two parameters, here the same bytes. -/
theorem bothModesActAlike : Obligations.BothModesActAlike := by
  intro s hsame
  have hcommand : modeCommand .text s.params = modeCommand .binary s.params := hsame
  exact execInitMode_congr hcommand

end Sys2Proof.Machine
end

section
/-! PROOFS. How requests and runs end exceptionally: the outcome codes, requests refused out of order, a failed read within
RUN, a failed mode-select write, and the faults no engine reaches (spec/60_exceptions.md R220 to R229). -/

namespace Sys2Proof.Machine

open Sys2Proof.Safety

/-! ### The outcome codes -/

/-- Settles O58: `resultCode` and `classCode` give R220's and R76's numbers, whatever value the outcome carries. -/
theorem outcomeCodesAreAsAssigned : Obligations.OutcomeCodesAreAsAssigned :=
  ⟨fun _ => rfl, fun _ => rfl, rfl, rfl, rfl, rfl, rfl, rfl, rfl, rfl, fun _ => rfl⟩

/-! ### Requests out of order -/

/-- Under an admitted table, what needs another phase is refused with the phase it needs (spec/60_exceptions.md R227). -/
theorem wrongPhase_refused {s : State} {p : Phase} (hp : isPermutation s.params.crcTable = true) (hr : s.phase ≠ p)
    (body : Answer) : needTable s (needPhase p s body) = .refused (.wrongPhase p) :=
  (needTable_of hp _).trans (needPhase_refused hr _)

theorem exec_run_wrongPhase {s : State} (hp : isPermutation s.params.crcTable = true) (hr : s.phase ≠ .ready)
    (budget : Option Nat) (ts : Bool) : exec (.run budget ts .wholeFrameDiscard) s = .refused (.wrongPhase .ready) :=
  wrongPhase_refused hp hr _

/-- HeaderHunt is refused in every phase (spec/42_stream_sync.md R157; log 13). -/
theorem exec_run_headerHunt {s : State} (hp : isPermutation s.params.crcTable = true) (budget : Option Nat) (ts : Bool) :
    exec (.run budget ts .headerHunt) s = .refused .headerHunt :=
  needTable_of hp _

/-- Settles O36: the admitted table lets each request through to its phase test, and RUN first to its strategy test. -/
theorem outOfOrderRequestsAreRefused : Obligations.OutOfOrderRequestsAreRefused :=
  ⟨fun _ _ hp hr => wrongPhase_refused hp hr _, fun _ budget ts hp hr => exec_run_wrongPhase hp hr budget ts,
    fun _ hp hr => wrongPhase_refused hp hr _, fun _ hp hr => wrongPhase_refused hp hr _,
    fun _ budget ts hp => exec_run_headerHunt hp budget ts⟩

/-! ### A failed read within RUN -/

/-- What an attempt needs does not depend on the request slot (log 7). -/
theorem attempting_slot_emptied {s : State} {c : RunConfig} (h : Attempting s c) : Attempting { s with engineReq := [] } c :=
  ⟨h.admitted, h.running, h.channel, h.config⟩

theorem afterReadDraw_slot (l : List Byte) (s : State) :
    afterReadDraw { s with engineReq := l } = { afterReadDraw s with engineReq := l } := by
  cases h : s.readDraws <;> simp [afterReadDraw, h]

/-- Settles O25: the failed read makes RUN_STEP return TransportFailure, and on that RUN stops. -/
theorem transportFailureEndsTheRun : Obligations.TransportFailureEndsTheRun := by
  intro s c ha he hd
  obtain ⟨_, hfailed⟩ := runStepCountsReadErrors
  have hexec := hfailed { s with engineReq := [] } c (attempting_slot_emptied ha) hd
  obtain ⟨_, _, _, hnext⟩ := stepRunsTheEnginesRequest s .runStep [] (by simp [he, encode]) (by rw [he]; rfl)
  obtain ⟨_, hstops⟩ := hnext _ hexec rfl
  rw [hstops rfl, afterReadDraw_slot]
  simp

/-! ### A failed mode-select write -/

/-- INIT_MODE with its write answered Fail (spec/60_exceptions.md R226): of the command's four bytes at most three were sent
(spec/20_memory.md R58). -/
theorem execInitMode_of_fail {s : State} {sent : Nat} (mode : Mode) (hp : isPermutation s.params.crcTable = true)
    (hr : s.phase = .reset) (ho : s.channelOpen = true) (hw : writeDraw s = .fail sent) :
    execInitMode mode s = .next { afterWriteDraw s with
      output := s.output ++ (frameBytes (modeCommand mode s.params)).take (min sent 3)
      events := s.events ++ [.write (frameBytes (modeCommand mode s.params)) .fail, .close]
      stopReason := .initFailed
      channelOpen := false
      phase := .stopped
      result := some (.init (.err .writeFailed)) } := by
  unfold execInitMode
  rw [needTable_of hp, needPhase_of hr, needChannel_of ho]
  simp only [sendCommand, chanWrite, hw]
  rw [stopWith_of (by simpa using ho)]
  simp [logEvent]

/-- A run of `k + 1` steps that ends in a next state is one step and a run of `k`. -/
theorem coreRun_succ_eq_next (M : Host.Core) {k : Nat} {s u : M.State} (h : M.run (k + 1) s = .next u) :
    ∃ t, M.step s = .next t ∧ M.run k t = .next u := by
  rw [Host.Core.run] at h
  split at h
  · next t ht => exact ⟨t, ht, h⟩
  · cases h
  · cases h

/-- What every step keeps, any number of steps keep. -/
theorem run_keeps {P : State → Prop} (hstep : ∀ s t, P s → step s = .next t → P t) {k : Nat} {s u : State} (hs : P s)
    (h : Host.Core.run Sys2Proof.core k s = .next u) : P u := by
  induction k generalizing s with
  | zero => cases h; exact hs
  | succ k ih =>
    obtain ⟨t, ht, hrest⟩ := coreRun_succ_eq_next Sys2Proof.core h
    exact ih (hstep s t hs ht) hrest

/-- STOPPED under an admitted table: all that the refusal of a later RUN rests on. -/
def Ended (s : State) : Prop := s.phase = .stopped ∧ isPermutation s.params.crcTable = true

/-- No transition leaves STOPPED (spec/10_state.md R28), and no step writes the table (R24). -/
theorem step_keeps_ended (s t : State) (h : Ended s) (hstep : step s = .next t) : Ended t := by
  obtain ⟨hp, htable⟩ := h
  obtain ⟨hparams, _⟩ := tableIsNeverWritten s t hstep
  obtain ⟨_, hmoves⟩ := phaseMovesOnlyAsListed
  refine ⟨?_, by rwa [hparams]⟩
  rcases hmoves s t hstep with hsame | ⟨hr, _⟩ | ⟨hr, _⟩ | ⟨hr, _⟩ | ⟨hr, _⟩
  · exact hsame.trans hp
  all_goals exact absurd (hp.symm.trans hr) (by decide)

/-- An engine that has ended is STOPPED after any further steps, and refuses RUN. -/
theorem Ended.refuses_run {s u : State} {k : Nat} (h : Ended s) (hrun : Host.Core.run Sys2Proof.core k s = .next u) :
    u.phase = .stopped ∧ ∀ budget ts, exec (.run budget ts .wholeFrameDiscard) u = .refused (.wrongPhase .ready) ∧
      exec (.run budget ts .headerHunt) u = .refused .headerHunt := by
  obtain ⟨hp, htable⟩ := run_keeps step_keeps_ended h hrun
  exact ⟨hp, fun budget ts => ⟨exec_run_wrongPhase htable (by simp [hp]) budget ts, exec_run_headerHunt htable budget ts⟩⟩

/-- Settles O28: the failed write stops the engine, and every step keeps it so. -/
theorem failedInitEndsTheEngine : Obligations.FailedInitEndsTheEngine := by
  intro s mode sent hp hr ho hw
  have hexec := execInitMode_of_fail mode hp hr ho hw
  have htable : isPermutation (afterWriteDraw s).params.crcTable = true := by rwa [afterWriteDraw_params]
  have hlt : min sent 3 < 4 := by omega
  cases mode with
  | binary => exact ⟨min sent 3, hlt, _, hexec, rfl, fun k u => Ended.refuses_run ⟨rfl, htable⟩⟩
  | text => exact ⟨min sent 3, hlt, _, hexec, rfl, fun k u => Ended.refuses_run ⟨rfl, htable⟩⟩

/-! ### No fault -/

/-- Outside a run, a step's fault is one of the operation it takes. -/
theorem step_eq_fault_of_not_running {s : State} {r : Fault} (hp : s.phase ≠ .running) (h : step s = .fault r) :
    ∃ i s1, fetch s = .op i s1 ∧ afterOp i (exec i s1) = .fault r := by
  rcases andThen_eq_fault.mp h with h | ⟨u, _, hcaller⟩
  · unfold engineStep at h
    split at h
    · cases h
    · next hf => exact absurd (fetch_eq_check hf).2 hp
    · next i s1 hf => exact ⟨i, s1, hf, h⟩
    · cases h
  · cases hcaller

/-- CRC_COMPUTE sets ACC before it reads it, so the read of an empty ACC cannot happen (spec/60_exceptions.md R228). -/
theorem execCrcCompute_ne_fault (data : List Byte) (len : Nat) (s : State) (r : Fault) :
    execCrcCompute data len s ≠ .fault r := by
  intro h
  obtain ⟨hp, _⟩ := needTable_eq_fault.mp h
  by_cases hl : len ≤ data.length
  · rw [execCrcCompute_of hp hl] at h
    cases h
  · have hrefused : execCrcCompute data len s = .refused .lengthBeyondData := exec_crcCompute_beyond hp (by omega)
    rw [hrefused] at h
    cases h

theorem execInitMode_ne_fault (mode : Mode) (s : State) (r : Fault) : execInitMode mode s ≠ .fault r := by
  intro h
  obtain ⟨_, h⟩ := needTable_eq_fault.mp h
  obtain ⟨_, h⟩ := needPhase_eq_fault.mp h
  obtain ⟨_, h⟩ := needChannel_eq_fault.mp h
  split at h
  · exact finish_ne_fault _ _ _ h
  · exact stopWith_ne_fault _ _ _ _ h

theorem execRun_ne_fault (budget : Option Nat) (ts : Bool) (resync : ResyncMode) (s : State) (r : Fault) :
    execRun budget ts resync s ≠ .fault r := by
  intro h
  obtain ⟨_, h⟩ := needTable_eq_fault.mp h
  cases resync with
  | headerHunt => cases h
  | wholeFrameDiscard =>
    obtain ⟨_, h⟩ := needPhase_eq_fault.mp h
    obtain ⟨_, h⟩ := needChannel_eq_fault.mp h
    cases h

/-- No operation of the caller's faults, in any state: none counts, reads FRAME or reads the latched configuration. -/
theorem exec_caller_ne_fault {i : Instr} (hi : i.issuer = .caller) (s : State) (r : Fault) : exec i s ≠ .fault r := by
  cases i with
  | crcStep acc b => exact fun h => finish_ne_fault _ _ _ (needTable_eq_fault.mp h).2
  | crcCompute data len => exact execCrcCompute_ne_fault data len s r
  | decode b0 b1 b2 b3 => exact fun h => finish_ne_fault _ _ _ (needTable_eq_fault.mp h).2
  | classify code => exact fun h => finish_ne_fault _ _ _ (needTable_eq_fault.mp h).2
  | nextFrame => cases hi
  | runStep => cases hi
  | run budget ts resync => exact execRun_ne_fault budget ts resync s r
  | initMode mode => exact execInitMode_ne_fault mode s r
  | close => cases hi

/-- Settles O50: in a run every step goes on; outside one the slot is empty, and the caller's operations do not fault. -/
theorem engineNeverFaults : Obligations.EngineNeverFaults := by
  intro s r l hw h
  by_cases hp : s.phase = .running
  · obtain ⟨t, ht⟩ := runningEngineAlwaysGoesOn s l hw hp
    rw [ht] at h
    cases h
  · have hslot : s.engineReq = [] := l.engineOwn.resolve_right fun h => hp h.2
    obtain ⟨i, s1, hf, hop⟩ := step_eq_fault_of_not_running hp h
    have hi : i.issuer = .caller := by
      rcases fetch_eq_op hf with ⟨_, _, rest, hd, _⟩ | ⟨_, _, hi, _⟩ | ⟨he, _⟩
      · exact decodeOp_caller_issuer hd
      · exact hi
      · exact absurd hslot he
    rw [afterOp_caller hi] at hop
    exact exec_caller_ne_fault hi s1 r hop

end Sys2Proof.Machine
end

section
/-! PROOFS. What RUN's start clears and keeps (spec/70_reset_and_hazards.md R251). -/

namespace Sys2Proof.Machine

open Sys2Proof.Safety

/-- An engine that waits for RUN has read nothing, so CURSOR, which RUN keeps, starts at 0 (spec/10_state.md R38). -/
theorem cursor_eq_zero_of_ready {s : State} (l : Lifecycle s) (hr : s.phase = .ready) : s.cursor = 0 := by
  obtain ⟨hcursor, _⟩ := l.beforeRun (.inr hr)
  exact hcursor

/-- Settles O18: all three tests pass, so RUN's answer is `startRun`, which is the state the statement writes out. -/
theorem runLatchesAndClears : Obligations.RunLatchesAndClears := by
  intro s budget ts htable hready hopen
  exact ⟨exec_run_of htable hready hopen budget ts, exec_run_headerHunt htable budget ts,
    fun l => cursor_eq_zero_of_ready l hready⟩

end Sys2Proof.Machine
end
